-- ==== Sys2Proof/Word.lean ====
section
/-! DEFINITION. The word and byte types of the block (00_scope.md R12, R23). -/

namespace Sys2Proof

/-- A 64-bit unsigned value: an address (R12), a dword of a structure (30_encoding.md, introduction).
Its `+` and `*` are modulo 2^64, as R12 asks. -/
abbrev Word := BitVec 64

/-- One byte of supervisor-physical memory (10_state.md R67). -/
abbrev Byte := BitVec 8

end Sys2Proof
end

