-- ==== Sys2Proof/Machine/Bits.lean ====
section
/-! DEFINITION. Bit helpers of the spec's notation (00_scope.md R23, R26) and the little-endian byte order
(20_memory.md R82, R83). -/

namespace Sys2Proof.Machine

/-- `mask(n)` of R23: the value whose low `n` bits are 1. -/
def lowMask (n : Nat) : Word := BitVec.ofNat 64 (2 ^ n - 1)

/-- The page-table, directory or queue page a 44-bit physical page number names: `PPN << 12` (R13). -/
def pageBase (ppn : BitVec 44) : Word := ppn.setWidth 64 <<< 12

/-- The bits of `v` that R26's procedure has packed after its loop variable has gone through the `n` lowest
positions, and how many they are. -/
def extractUpto (v m : Word) : Nat → Word × Nat
  | 0 => (0, 0)
  | n + 1 =>
    let (r, k) := extractUpto v m n
    if m.getLsbD n then (if v.getLsbD n then r ||| (1#64 <<< k) else r, k + 1) else (r, k)

/-- `extract(v, m)` of R26: the bits of `v` at the 1 positions of `m`, packed into the low bits. -/
def extractBits (v m : Word) : Word := (extractUpto v m 64).1

/-- The dword whose bytes, lowest address first, are the arguments (R82). -/
def dwordOfBytes (b0 b1 b2 b3 b4 b5 b6 b7 : Byte) : Word :=
  b7 ++ b6 ++ b5 ++ b4 ++ b3 ++ b2 ++ b1 ++ b0

/-- The 32-bit value whose bytes, lowest address first, are the arguments (R83). -/
def word32OfBytes (b0 b1 b2 b3 : Byte) : BitVec 32 := b3 ++ b2 ++ b1 ++ b0

/-- The `n` low bytes of `v`, lowest address first (R24, R82). -/
def leBytes (n : Nat) (v : Word) : List Byte := (List.range n).map fun i => v.extractLsb' (8 * i) 8

/-- The bytes of a structure of dwords, the dword at the lowest address first (R83). -/
def leDwords (ds : List Word) : List Byte := ds.flatMap (leBytes 8)

end Sys2Proof.Machine
end

