-- ==== Sys2Proof/Syntax.lean ====
section
/-! DEFINITION. The commands of the block: one constructor per row of spec/opcode_table.json, with every
named operand field of its encoding (30_encoding.md R161 to R164), those the command ignores included. -/

namespace Sys2Proof

/-- A command of the command queue (30_encoding.md R160, R165). -/
inductive Instr where
  /-- IOTINVAL.VMA (R161, R361). -/
  | iotinvalVma (av : Bool) (pscid : BitVec 20) (pscv gv : Bool) (gscid : BitVec 16) (addr : BitVec 52)
  /-- IOTINVAL.GVMA (R161, R362): `av`, `pscid` and `addr` are ignored; `pscv` makes it illegal. -/
  | iotinvalGvma (av : Bool) (pscid : BitVec 20) (pscv gv : Bool) (gscid : BitVec 16) (addr : BitVec 52)
  /-- IOFENCE.C (R162, R375): `pr` and `pw` have no effect (R377). -/
  | iofenceC (av wsi pr pw : Bool) (data : BitVec 32) (addr : BitVec 62)
  /-- IODIR.INVAL_DDT (R163, R380): `pid` is ignored. -/
  | iodirInvalDdt (pid : BitVec 20) (dv : Bool) (did : BitVec 24)
  /-- IODIR.INVAL_PDT (R163, R381): `dv` clear makes it illegal. -/
  | iodirInvalPdt (pid : BitVec 20) (dv : Bool) (did : BitVec 24)
  /-- ATS.INVAL (R164, R385). -/
  | atsInval (pid : BitVec 20) (pv dsv : Bool) (rid : BitVec 16) (dseg : BitVec 8) (payload : Word)
  /-- ATS.PRGR (R164, R386). -/
  | atsPrgr (pid : BitVec 20) (pv dsv : Bool) (rid : BitVec 16) (dseg : BitVec 8) (payload : Word)
deriving DecidableEq, Repr

end Sys2Proof
end

