-- ==== Sys2Proof/WellFormed.lean ====
section
/-! DEFINITION. Which commands are well formed: the two operand combinations that 30_encoding.md R166 makes
illegal are not. (Every other operand value is legal: the field widths are in the types. An ATS command's
legality also depends on `CAP`, R370, so it is checked by the meaning, not here.) An ill-formed command can
still stand in the ring: it decodes, and its meaning is the illegal-command stop of R370. -/

namespace Sys2Proof

/-- The operand combinations R166 allows. -/
def Instr.wf : Instr → Bool
  | .iotinvalVma _ _ _ _ _ _ => true
  | .iotinvalGvma _ _ pscv _ _ _ => !pscv
  | .iofenceC _ _ _ _ _ _ => true
  | .iodirInvalDdt _ _ _ => true
  | .iodirInvalPdt _ dv _ => dv
  | .atsInval _ _ _ _ _ _ => true
  | .atsPrgr _ _ _ _ _ _ => true

end Sys2Proof
end

