-- ==== Sys2Proof/Decode.lean ====
section
/-! DEFINITION. The command decoder and the encoder (30_encoding.md R160 to R169). A command is two dwords,
always 16 bytes (R168). Every operand is a zero-extended field (R169); reserved bits are ignored (R167). -/

namespace Sys2Proof

/-- Why bytes are no command. -/
inductive DecodeReject where
  /-- Not 16 bytes (R168). -/
  | notSixteenBytes
  /-- A `{FUNC3, OPCODE}` that is not in the table of R165 (R166). -/
  | unknownCommand (func3opcode : BitVec 10)
deriving DecidableEq, Repr

/-- What the decoder answers. -/
inductive Decoded where
  | instr (i : Instr)
  | reject (why : DecodeReject)
deriving DecidableEq, Repr

/-- One bit of a dword as a flag (R23). -/
def flag (d : Word) (i : Nat) : Bool := d.getLsbD i

/-- `{FUNC3, OPCODE}`: bits 9 to 0 of dword 0 (R160, R165). -/
def func3opcode (d0 : Word) : BitVec 10 := d0.extractLsb' 0 10

/-- The operand fields of an IOTINVAL command (R161), given to the command's constructor. -/
def decodeIotinval (mk : Bool → BitVec 20 → Bool → Bool → BitVec 16 → BitVec 52 → Instr) (d0 d1 : Word) : Instr :=
  mk (flag d0 10) (d0.extractLsb' 12 20) (flag d0 32) (flag d0 33) (d0.extractLsb' 44 16) (d1.extractLsb' 10 52)

/-- The operand fields of IOFENCE.C (R162). -/
def decodeIofence (d0 d1 : Word) : Instr :=
  .iofenceC (flag d0 10) (flag d0 11) (flag d0 12) (flag d0 13) (d0.extractLsb' 32 32) (d1.extractLsb' 0 62)

/-- The operand fields of an IODIR command (R163); dword 1 is reserved. -/
def decodeIodir (mk : BitVec 20 → Bool → BitVec 24 → Instr) (d0 : Word) : Instr :=
  mk (d0.extractLsb' 12 20) (flag d0 33) (d0.extractLsb' 40 24)

/-- The operand fields of an ATS command (R164). -/
def decodeAts (mk : BitVec 20 → Bool → Bool → BitVec 16 → BitVec 8 → Word → Instr) (d0 d1 : Word) : Instr :=
  mk (d0.extractLsb' 12 20) (flag d0 32) (flag d0 33) (d0.extractLsb' 40 16) (d0.extractLsb' 56 8) d1

/-- The command two dwords hold (R160, R165): an exhaustive match on `{FUNC3, OPCODE}` (R367). -/
def decode (d0 d1 : Word) : Decoded :=
  if func3opcode d0 = 0x001#10 then .instr (decodeIotinval .iotinvalVma d0 d1)
  else if func3opcode d0 = 0x081#10 then .instr (decodeIotinval .iotinvalGvma d0 d1)
  else if func3opcode d0 = 0x002#10 then .instr (decodeIofence d0 d1)
  else if func3opcode d0 = 0x003#10 then .instr (decodeIodir .iodirInvalDdt d0)
  else if func3opcode d0 = 0x083#10 then .instr (decodeIodir .iodirInvalPdt d0)
  else if func3opcode d0 = 0x004#10 then .instr (decodeAts .atsInval d0 d1)
  else if func3opcode d0 = 0x084#10 then .instr (decodeAts .atsPrgr d0 d1)
  else .reject (.unknownCommand (func3opcode d0))

/-- The command that 16 bytes hold, the byte at the lowest address first (R82, R83, R168). -/
def decodeBytes : List Byte → Decoded
  | [a0, a1, a2, a3, a4, a5, a6, a7, b0, b1, b2, b3, b4, b5, b6, b7] =>
    decode (Machine.dwordOfBytes a0 a1 a2 a3 a4 a5 a6 a7) (Machine.dwordOfBytes b0 b1 b2 b3 b4 b5 b6 b7)
  | _ => .reject .notSixteenBytes

/-- The 16 bytes, lowest address first, of a command whose bits are the low `nbits` bits of `w`; bit 0 is
the least significant bit of dword 0, bit 64 that of dword 1, and every bit from `nbits` up is 0. -/
def tableWordBytes (nbits w : Nat) : List Byte :=
  (List.range 16).map fun i => BitVec.ofNat 8 ((w % 2 ^ nbits) >>> (8 * i))

/-- The instruction the decoder reads from a command whose bits are `w`, as opcode_table.json numbers them. -/
def decodeTableWord (nbits w : Nat) : Option Instr :=
  match decodeBytes (tableWordBytes nbits w) with
  | .instr i => some i
  | .reject _ => none

/-! ## The encoder -/

/-- Dword 0 of an IOTINVAL command (R161). -/
def encodeIotinval0 (op : BitVec 10) (av : Bool) (pscid : BitVec 20) (pscv gv : Bool) (gscid : BitVec 16) : Word :=
  0#4 ++ gscid ++ 0#10 ++ BitVec.ofBool gv ++ BitVec.ofBool pscv ++ pscid ++ 0#1 ++ BitVec.ofBool av ++ op

/-- Dword 1 of an IOTINVAL command (R161). -/
def encodeIotinval1 (addr : BitVec 52) : Word := 0#2 ++ addr ++ 0#10

/-- Dword 0 of IOFENCE.C (R162). -/
def encodeIofence0 (op : BitVec 10) (av wsi pr pw : Bool) (data : BitVec 32) : Word :=
  data ++ 0#18 ++ BitVec.ofBool pw ++ BitVec.ofBool pr ++ BitVec.ofBool wsi ++ BitVec.ofBool av ++ op

/-- Dword 1 of IOFENCE.C (R162). -/
def encodeIofence1 (addr : BitVec 62) : Word := 0#2 ++ addr

/-- Dword 0 of an IODIR command (R163). -/
def encodeIodir0 (op : BitVec 10) (pid : BitVec 20) (dv : Bool) (did : BitVec 24) : Word :=
  did ++ 0#6 ++ BitVec.ofBool dv ++ 0#1 ++ pid ++ 0#2 ++ op

/-- Dword 0 of an ATS command (R164). -/
def encodeAts0 (op : BitVec 10) (pid : BitVec 20) (pv dsv : Bool) (rid : BitVec 16) (dseg : BitVec 8) : Word :=
  dseg ++ rid ++ 0#6 ++ BitVec.ofBool dsv ++ BitVec.ofBool pv ++ pid ++ 0#2 ++ op

/-- The `{FUNC3, OPCODE}` of a command (R165). -/
def opcodeOf : Instr → BitVec 10
  | .iotinvalVma _ _ _ _ _ _ => 0x001#10
  | .iotinvalGvma _ _ _ _ _ _ => 0x081#10
  | .iofenceC _ _ _ _ _ _ => 0x002#10
  | .iodirInvalDdt _ _ _ => 0x003#10
  | .iodirInvalPdt _ _ _ => 0x083#10
  | .atsInval _ _ _ _ _ _ => 0x004#10
  | .atsPrgr _ _ _ _ _ _ => 0x084#10

/-- The two dwords of a command, reserved bits 0 (R161 to R164). -/
def encode (i : Instr) : Word × Word :=
  match i with
  | .iotinvalVma av pscid pscv gv gscid addr => (encodeIotinval0 (opcodeOf i) av pscid pscv gv gscid, encodeIotinval1 addr)
  | .iotinvalGvma av pscid pscv gv gscid addr => (encodeIotinval0 (opcodeOf i) av pscid pscv gv gscid, encodeIotinval1 addr)
  | .iofenceC av wsi pr pw data addr => (encodeIofence0 (opcodeOf i) av wsi pr pw data, encodeIofence1 addr)
  | .iodirInvalDdt pid dv did => (encodeIodir0 (opcodeOf i) pid dv did, 0)
  | .iodirInvalPdt pid dv did => (encodeIodir0 (opcodeOf i) pid dv did, 0)
  | .atsInval pid pv dsv rid dseg payload => (encodeAts0 (opcodeOf i) pid pv dsv rid dseg, payload)
  | .atsPrgr pid pv dsv rid dseg payload => (encodeAts0 (opcodeOf i) pid pv dsv rid dseg, payload)

end Sys2Proof
end

