-- ==== Sys2Proof/Config.lean ====
section
/-! DEFINITION. What an instance of the block is built with (00_scope.md R14 to R21, 10_state.md R36):
the capability set and the OPEN parameters. They are constant for the life of an instance. The state
carries them (`State.params`), so that every statement about the machine holds for every choice of them. -/

namespace Sys2Proof

/-- The capability flags `CAP` (00_scope.md R4, R20). -/
structure Cap where
  sv32 : Bool
  sv39 : Bool
  sv48 : Bool
  sv57 : Bool
  sv32x4 : Bool
  sv39x4 : Bool
  sv48x4 : Bool
  sv57x4 : Bool
  pd8 : Bool
  pd17 : Bool
  pd20 : Bool
  msiFlat : Bool
  msiMrif : Bool
  ats : Bool
deriving DecidableEq, Repr

/-- `RESET_DDTP_MODE` (00_scope.md R16): translation disabled, or pass-through. -/
inductive ResetMode where
  | off
  | bare
deriving DecidableEq, Repr

/-- The parameters of an instance (00_scope.md R14 to R21). -/
structure Params where
  /-- `CAP` (R20). -/
  cap : Cap
  /-- `GXL` (R19): true selects the 32-bit second-stage family. -/
  gxl : Bool
  /-- `TC_APRQ_BIT` (R18). -/
  tcAprqBit : Nat
  /-- `MSI_IFN_LIMIT` (R17). -/
  msiIfnLimit : Nat
  /-- `CTX_CACHE_CAPACITY` (R14). -/
  ctxCacheCapacity : Nat
  /-- `IOTLB_CAPACITY` (R15). -/
  iotlbCapacity : Nat
  /-- `RESET_DDTP_MODE` (R16). -/
  resetDdtpMode : ResetMode
  /-- `PA_WIDTH` (R21): read by no rule. -/
  paWidth : Nat
deriving DecidableEq, Repr

/-- The ranges the spec gives the parameters (R14, R17, R18); `IOTLB_CAPACITY` may be 0 (R15). -/
abbrev Params.WF (p : Params) : Prop :=
  1 ≤ p.ctxCacheCapacity ∧ 1 ≤ p.msiIfnLimit ∧ 12 ≤ p.tcAprqBit ∧ p.tcAprqBit ≤ 63

/-- The parameters `State.reset` carries. DESIGN CHOICE (log entry 1): the spec leaves all of them OPEN;
`CAP`, `TC_APRQ_BIT` and `MSI_IFN_LIMIT` take the suggestions of D8, D38 and D32, the capacities the values
of 95_test_vectors.md section 0. -/
def Params.suggested : Params where
  cap := { sv32 := false, sv39 := true, sv48 := true, sv57 := true, sv32x4 := false, sv39x4 := true,
           sv48x4 := true, sv57x4 := true, pd8 := true, pd17 := true, pd20 := true, msiFlat := true,
           msiMrif := true, ats := true }
  gxl := false
  tcAprqBit := 32
  msiIfnLimit := 256
  ctxCacheCapacity := 8
  iotlbCapacity := 8
  resetDdtpMode := .off
  paWidth := 56

/-- `DC_EXT` (10_state.md R37): the extended 64-byte device-context format is in use. -/
def Params.dcExt (p : Params) : Bool := p.cap.msiFlat

end Sys2Proof
end

