-- ==== Sys2Proof/Machine/State.lean ====
section
/-! DEFINITION. The state of the block as plain data (10_state.md), the reasons a step can stop, and the state
after reset (70_reset_and_hazards.md R470). INVENTORY.md lists each field with its rule. -/

namespace Sys2Proof.Machine

/-! ## Faults of the machine itself -/

/-- Why a step stops with a fault. The block has no trap: a failed request ends with a `Result` and the block
goes on (60_exceptions.md, introduction, R429), so the only fault is the model's own. -/
inductive Fault where
  /-- Raised by a stage walk over a context whose stage-1 or stage-2 mode is no supported one.
  41_translation.md R271 says the context checks rule this out, and gives no effect. Safe: the machine stops
  (log entry 12). -/
  | unsupportedMode
deriving DecidableEq, Repr

/-- Why a step is refused. -/
inductive Refusal where
  /-- An instruction without a meaning yet. Raised by an arm of `exec` only; no arm of this model raises it. Safe. -/
  | notModelled (mnemonic : String)
  /-- Raised by the background thread when it takes the debug translation-request action: the source gives
  neither its layout nor its semantics (60_exceptions.md R458, I36). Safe: the machine stops (log entry 11). -/
  | debugTranslation
deriving DecidableEq, Repr

/-! ## Cause codes, events and interrupts -/

/-- The causes of 60_exceptions.md R410, those never raised (R411) included. -/
inductive Cause where
  | instrAccessFault | readAccessFault | writeAccessFault
  | instrPageFault | readPageFault | writePageFault
  | instrGuestPageFault | readGuestPageFault | writeGuestPageFault
  | allInboundDisallowed
  | ddtLoadFault | ddtInvalid | ddtMisconfigured
  | transactionTypeDisallowed
  | msiPteLoadFault | msiPteInvalid | msiPteMisconfigured | mrifAccessFault
  | pdtLoadFault | pdtInvalid | pdtMisconfigured
  | ddtCorrupt | pdtCorrupt | msiPtCorrupt | mrifCorrupt
  | internalDataPathError
  | msiWriteFault
  | ptCorrupt
deriving DecidableEq, Repr

/-- The performance events of 60_exceptions.md R440. -/
inductive PerfEvent where
  | urq | trq | atsRq | tlbMiss | ddWalk | pdWalk | sWalk | gWalk
deriving DecidableEq, Repr

/-- The interrupt-request outputs of 60_exceptions.md R445. `pm` is raised by the monitor, outside the block. -/
inductive IntReq where
  | cq | fq | pq | pm
deriving DecidableEq, Repr

/-- The two kinds of ATS event (43_commands.md R385, R386). -/
inductive AtsKind where
  | inval | prgr
deriving DecidableEq, Repr

/-! ## Configuration -/

/-- The legal values of `ddtp.MODE` (10_state.md R33, 30_encoding.md R121). -/
inductive DdtpMode where
  | off | bare | lvl1 | lvl2 | lvl3
deriving DecidableEq, Repr

/-- The two fields of `ddtp` the block reads (10_state.md R33). -/
structure Ddtp where
  mode : DdtpMode
  ppn : BitVec 44
deriving DecidableEq, Repr

/-! ## Caches -/

/-- A translation context (10_state.md R38). -/
structure Ctx where
  devid : BitVec 24
  pid : BitVec 20
  tc : Word
  gatp : Word
  satp : Word
  ta : Word
  msiptp : Word
  msiAddrMask : Word
  msiAddrPattern : Word
deriving DecidableEq, Repr

/-- A context-cache entry (10_state.md R39, R41); its key is its context's `(devid, pid)`. -/
structure CtxEntry where
  ctx : Ctx
  valid : Bool
deriving DecidableEq, Repr

/-- A subset of {R, W}. -/
structure Perm where
  r : Bool
  w : Bool
deriving DecidableEq, Repr

/-- An IOTLB entry (10_state.md R42); its key is `(gscid, pscid, vpn)` (R43). -/
structure TlbEntry where
  gscid : BitVec 16
  pscid : BitVec 20
  vpn : BitVec 52
  ppn : BitVec 52
  perm : Perm
  valid : Bool
deriving DecidableEq, Repr

/-- One generation of a cache: its number and its map (10_state.md R45). -/
structure Generation (E : Type) where
  number : Nat
  entries : List E
deriving DecidableEq, Repr

/-- A cache (10_state.md R45): the current generation, and the replaced generations that a request in flight
still pins (log entry 20). -/
structure Cache (E : Type) where
  current : Generation E
  pinned : List (Generation E)
deriving DecidableEq, Repr

/-! ## Requests -/

/-- The size of a write: 1, 2, 4 or 8 bytes (41_translation.md R250). -/
inductive AccessSize where
  | b1 | b2 | b4 | b8
deriving DecidableEq, Repr

/-- The kind of a request; data and size are present for a write only (41_translation.md R250). -/
inductive ReqKind where
  | read
  | write (data : Word) (size : AccessSize)
  | exec
  | ats
deriving DecidableEq, Repr

/-- A translation request (41_translation.md R250). -/
structure Request where
  devid : BitVec 24
  pid : BitVec 20
  iova : Word
  kind : ReqKind
deriving DecidableEq, Repr

/-- The two stages (00_scope.md R28). -/
inductive Stage where
  | s | g
deriving DecidableEq, Repr

/-- A row of the geometry table (30_encoding.md R140). -/
structure Geometry where
  levels : Nat
  indexBits : Nat
  rootBits : Nat
  pteBytes : Nat
  width : Nat
deriving DecidableEq, Repr

/-- The walk state of a request (10_state.md R50) with the geometry its mode selects (41_translation.md R271). -/
structure WalkState where
  stage : Stage
  geom : Geometry
  level : Nat
  base : Word
  addr : Word
  mask : Word
  perm : Perm
deriving DecidableEq, Repr

/-- What a request that is resolving its context does next (40_context.md). -/
inductive CtxPhase where
  /-- Emit the request's event and look the context up (41_translation.md R253, 40_context.md R201). -/
  | lookup
  /-- The miss: replace the current generation if it is full (R202). -/
  | makeRoom
  /-- Sample `ddtp` and start the walk (R203 to R207). -/
  | walk
  /-- Read the non-leaf device-directory entry of level `lvl` in the page at `page` (R208). -/
  | ddEntry (lvl : Nat) (page : Word)
  /-- Read the device context in the leaf page at `page` (R211). -/
  | ddLeaf (page : Word)
  /-- Read the non-leaf process-directory entry of level `lvl` in the page at `page` (R222). -/
  | pdEntry (ctx : Ctx) (lvl : Nat) (page : Word)
  /-- Read the process context in the leaf page at `page` (R224). -/
  | pdLeaf (ctx : Ctx) (page : Word)
  /-- Insert the resolved context (R202). -/
  | insert (ctx : Ctx)
  /-- Report the failed resolution (R229, 60_exceptions.md R420). -/
  | report (cause : Cause) (dtf : Bool)
deriving DecidableEq, Repr

/-- What a request with a resolved context does next (41_translation.md, 42_msi.md). -/
inductive XlatePhase where
  /-- The ATS check and the IOTLB lookup (41_translation.md R254 to R256). -/
  | lookup
  /-- Read the stage-1 entry of `w`, which lies at the supervisor-physical address `pa` (R273). -/
  | sWalk (w : WalkState) (pa : Word)
  /-- Read the next stage-2 entry of `g`, the implicit translation of the address of the stage-1 entry of `w` (R276). -/
  | sImplicit (w g : WalkState)
  /-- Read the next stage-2 entry of the data path (R261). -/
  | gWalk (w : WalkState)
  /-- Read the MSI page-table entry of interrupt file `ifn`, for the write of `data` (42_msi.md R326). -/
  | msiPte (gpa ifn data : Word) (size : AccessSize)
  /-- Make the device's write at `target` (R331). -/
  | msiForward (target data : Word) (size : AccessSize)
  /-- Read the pending dword at `pa` for identity `id`; `m1` is dword 1 of the entry (R335). -/
  | mrifPendingRead (pa id m1 : Word)
  /-- Write the pending dword back (R335). -/
  | mrifPendingWrite (pa id m1 pending : Word)
  /-- Read the enable dword (R336). -/
  | mrifEnable (pa id m1 : Word)
  /-- Write the notice (R337). -/
  | mrifNotice (m1 : Word)
  /-- Replace the current IOTLB generation if it is full (41_translation.md R257). -/
  | tlbRoom (addr mask : Word) (perm : Perm)
  /-- Insert the translation into the IOTLB (R257, R263). -/
  | tlbInsert (addr mask : Word) (perm : Perm)
  /-- Report the failed translation (R264, 60_exceptions.md R420, R425). -/
  | report (cause : Cause) (gpa2 : Word)
deriving DecidableEq, Repr

/-- The result of a request (41_translation.md R251). -/
inductive Result where
  | ok (addr mask : Word) (perm : Perm)
  | msiDone
  | fault (cause : Cause)
deriving DecidableEq, Repr

/-- How far a request has come (10_state.md R48). -/
inductive Progress where
  /-- Without a context. -/
  | resolving (p : CtxPhase)
  /-- With the context it resolved. -/
  | translating (ctx : Ctx) (p : XlatePhase)
  /-- With its result, which it has still to return: whatever other agents do before it does, invalidations and
  fences included, the result stays (20_memory.md R93, 43_commands.md R378). -/
  | ending (r : Result)
deriving DecidableEq, Repr

/-- A dword of a structure that its reader has already read, at this address; `none` is a failed read
(20_memory.md R87, R88; log entry 5). -/
structure Latch where
  addr : Word
  value : Option Word
deriving DecidableEq, Repr

/-- A request in flight (10_state.md R48, R49). -/
structure InFlight where
  id : Nat
  req : Request
  /-- The context-cache generation it pinned, once it has looked up. -/
  ctxGen : Option Nat
  /-- The IOTLB generation it pinned, once it has looked up. -/
  tlbGen : Option Nat
  progress : Progress
  latches : List Latch
deriving DecidableEq, Repr

/-! ## Queues -/

/-- The command queue's state (10_state.md R60). -/
inductive CqState where
  | disabled | enabling | on
deriving DecidableEq, Repr

/-- The command queue (10_state.md R60). -/
structure CmdQueue where
  base : Word
  size : Nat
  head : Nat
  tail : Nat
  state : CqState
  cmdIll : Bool
  cmdMf : Bool
  fenceWIp : Bool
deriving DecidableEq, Repr

/-- The fault queue or the page-request queue (10_state.md R63, R64). -/
structure RecQueue where
  base : Word
  size : Nat
  head : Nat
  tail : Nat
  active : Bool
  overflow : Bool
  memFault : Bool
  ip : Bool
deriving DecidableEq, Repr

/-- A queue, as software's register writes name it. -/
inductive QueueId where
  | cq | fq | pq
deriving DecidableEq, Repr

/-! ## The background thread -/

/-- The pending actionable registers (43_commands.md R373), each with the value software asked for. -/
structure Pending where
  ddtp : Option Ddtp
  cqControl : Option Bool
  cqTail : Bool
  fqControl : Option Bool
  pqControl : Option Bool
  debug : Bool
deriving DecidableEq, Repr

/-- Where the background thread stands: between actions, or inside the loop of 43_commands.md R360. -/
inductive ThreadState where
  | idle | commands
deriving DecidableEq, Repr

/-! ## Memory -/

/-- Supervisor-physical memory (10_state.md R67): (address, byte) pairs in canonical form (`Memory.WF`);
an unlisted address reads as 0 (log entry 3). -/
abbrev Memory := List Host.Cell

/-- The canonical form: addresses strictly rising and below 2^64, and no entry equal to what an unlisted
address reads as. -/
abbrev Memory.WF (m : Memory) : Prop :=
  m.Pairwise (fun c d => c.1 < d.1) ∧ ∀ c ∈ m, c.1 < 2 ^ 64 ∧ c.2 ≠ 0

/-- Addresses `lo` to `hi` (both included) at which the memory primitive answers `Fail` to reads, to writes,
or to both (00_scope.md R24, 20_memory.md R80; log entry 4). -/
structure FailRange where
  lo : Nat
  hi : Nat
  onRead : Bool
  onWrite : Bool
deriving DecidableEq, Repr

/-- The direction of a memory access. -/
inductive Dir where
  | read | write
deriving DecidableEq, Repr

/-! ## What comes in and what goes out -/

/-- An action of software, the register file or another agent at the boundary (log entries 8 and 23). -/
inductive SwAction where
  /-- Another agent stores the `size` low bytes of `value` in memory. -/
  | store (addr : Word) (size : AccessSize) (value : Word)
  /-- The platform changes which accesses fail. -/
  | setFailing (ranges : List FailRange)
  /-- Write of the `ddtp` register (10_state.md R34). -/
  | writeDdtp (value : Word)
  /-- Queue base and size (43_commands.md R391). -/
  | configQueue (q : QueueId) (base : Word) (size : Nat)
  /-- Queue enable or disable (43_commands.md R390, 60_exceptions.md R437). -/
  | controlQueue (q : QueueId) (enable : Bool)
  /-- Write of `cq_tail` (10_state.md R62), a wake-up (43_commands.md R373). -/
  | writeCqTail (v : Nat)
  /-- Write of a head index: the consumer's (60_exceptions.md R435), or the recovery of 43_commands.md R371. -/
  | writeHead (q : QueueId) (v : Nat)
  /-- Clearing of `cmd_ill`, `cmd_mf`, `fence_w_ip` (10_state.md R61): a bit is cleared where the argument is true. -/
  | clearCq (ill mf fence : Bool)
  /-- Clearing of `fq_of`, `fq_mf`, `fq_ip` (60_exceptions.md R435). -/
  | clearFq (overflow memFault ip : Bool)
  /-- Clearing of `pq_of`, `pq_mf`, `pq_ip` (60_exceptions.md R435). -/
  | clearPq (overflow memFault ip : Bool)
  /-- Write of the debug translation-request register (60_exceptions.md R458). -/
  | debugRequest
deriving DecidableEq, Repr

/-- One move of one agent (60_exceptions.md R455; log entry 2). -/
inductive Move where
  /-- The background thread does its next piece of work. -/
  | thread
  /-- The background thread reads dword `k` of the command at the head before it reads the rest (20_memory.md R87). -/
  | latchCommand (k : Nat)
  /-- A device presents a request (41_translation.md R250); the identifiers are as wide as the bus carries them. -/
  | request (devid pid : Nat) (iova : Word) (kind : ReqKind)
  /-- The request in flight `id` does its next access. -/
  | advance (id : Nat)
  /-- The request in flight `id` reads dword `k` of the structure it reads next before it reads the rest (20_memory.md R87). -/
  | latch (id k : Nat)
  /-- Software acts. -/
  | software (a : SwAction)
  /-- The instance is torn down and created again (70_reset_and_hazards.md R470, R474, 10_state.md R71). -/
  | realize
deriving DecidableEq, Repr

/-- Why an input is rejected at the interface, without effect on the block (log entry 8). -/
inductive Rejection where
  /-- A device id wider than 24 bits (00_scope.md R10). -/
  | devidTooWide
  /-- A process id wider than 20 bits (00_scope.md R11). -/
  | pidTooWide
  /-- A `ddtp` value with a reserved mode or reserved bits (10_state.md R33, I1, R477). -/
  | illegalDdtp
  /-- A queue size that is no power of two, or a misaligned queue base (43_commands.md R391, I2). -/
  | malformedQueue
deriving DecidableEq, Repr

/-- One thing the block does that the outside can see (log entry 13). -/
inductive Output where
  /-- One performance event (60_exceptions.md R440) with its tags (R441). -/
  | event (e : PerfEvent) (devid : BitVec 24) (pid : BitVec 20) (gscid : BitVec 16) (pscid : BitVec 20)
  /-- One interrupt request (60_exceptions.md R445). -/
  | signal (i : IntReq)
  /-- One ATS event (43_commands.md R385, R386). -/
  | atsEvent (kind : AtsKind) (devid : BitVec 24) (pid : BitVec 20) (payload : Word)
  /-- The result of a request (41_translation.md R251, 60_exceptions.md R427). -/
  | result (id : Nat) (r : Result)
  /-- An input rejected at the interface. -/
  | rejected (why : Rejection)
  /-- One memory access: direction, address, bytes, and whether it succeeded (20_memory.md R81). -/
  | access (dir : Dir) (addr : Word) (bytes : Nat) (ok : Bool)
deriving DecidableEq, Repr

/-! ## The state -/

/-- Everything the spec gives the block (10_state.md), and the schedule and trace of log entries 2 and 13. -/
structure State where
  /-- The instance's parameters (10_state.md R36): no step changes them. -/
  params : Params
  mem : Memory
  failing : List FailRange
  ddtp : Ddtp
  ctxCache : Cache CtxEntry
  iotlb : Cache TlbEntry
  cq : CmdQueue
  fq : RecQueue
  pq : RecQueue
  pending : Pending
  thread : ThreadState
  cmdLatches : List Latch
  inflight : List InFlight
  nextId : Nat
  /-- The moves still to be made, the next one first. -/
  schedule : List Move
  /-- The outputs so far, the newest first. -/
  trace : List Output
deriving DecidableEq, Repr

/-- A cache with one empty generation, number 0, and nothing pinned (10_state.md R69). -/
def Cache.empty {E : Type} : Cache E := { current := { number := 0, entries := [] }, pinned := [] }

/-- The command queue after reset (10_state.md R70); base, size, head and tail are DESIGN CHOICE (log entry 6). -/
def CmdQueue.reset : CmdQueue :=
  { base := 0, size := 2, head := 0, tail := 0, state := .disabled, cmdIll := false, cmdMf := false, fenceWIp := false }

/-- A record queue after reset (10_state.md R70); base, size, head and tail are DESIGN CHOICE (log entry 6). -/
def RecQueue.reset : RecQueue :=
  { base := 0, size := 2, head := 0, tail := 0, active := false, overflow := false, memFault := false, ip := false }

/-- `ddtp` after reset (10_state.md R35). -/
def Ddtp.reset (p : Params) : Ddtp :=
  { mode := match p.resetDdtpMode with | .off => .off | .bare => .bare, ppn := 0 }

/-- No action pending (70_reset_and_hazards.md R472). -/
def Pending.none : Pending :=
  { ddtp := .none, cqControl := .none, cqTail := false, fqControl := .none, pqControl := .none, debug := false }

/-- The machine right after reset of an instance with parameters `p` (70_reset_and_hazards.md R470). Memory is
the platform's: nothing is listed and no access fails (log entries 3 and 4). -/
def State.ofParams (p : Params) : State where
  params := p
  mem := []
  failing := []
  ddtp := Ddtp.reset p
  ctxCache := Cache.empty
  iotlb := Cache.empty
  cq := CmdQueue.reset
  fq := RecQueue.reset
  pq := RecQueue.reset
  pending := Pending.none
  thread := .idle
  cmdLatches := []
  inflight := []
  nextId := 0
  schedule := []
  trace := []

/-- The machine right after reset (R470), with the parameters of log entry 1. -/
def State.reset : State := State.ofParams Params.suggested

end Sys2Proof.Machine
end

