-- ==== Sys2Proof/Machine/Flags.lean ====
section
/-! DEFINITION. The block has no condition codes (10_state.md R32): its flags are the valid bits of cache
entries, the status bits of the queues, and the bits of a page-table entry that the walk tests
(41_translation.md R275 to R283). -/

namespace Sys2Proof.Machine

/-! ## Valid bits (R41, R44) -/

/-- A context-cache entry with its valid bit cleared (R41). -/
def CtxEntry.invalidate (e : CtxEntry) : CtxEntry := { e with valid := false }

/-- An IOTLB entry with its valid bit cleared (R44). -/
def TlbEntry.invalidate (e : TlbEntry) : TlbEntry := { e with valid := false }

/-! ## Permissions -/

/-- A permission covers the request (R252, R255): R for READ and EXEC, W for WRITE, nothing for ATS. -/
def Perm.covers (p : Perm) : ReqKind → Bool
  | .read => p.r
  | .exec => p.r
  | .write _ _ => p.w
  | .ats => true

/-- The intersection of two permissions (R259, R261). -/
def Perm.inter (p q : Perm) : Perm := { r := p.r && q.r, w := p.w && q.w }

/-- The full permission {R, W}, with which a walk starts (10_state.md R50). -/
def Perm.rw : Perm := { r := true, w := true }

/-- The request is a WRITE. -/
def ReqKind.isWrite : ReqKind → Bool
  | .write _ _ => true
  | .read => false
  | .exec => false
  | .ats => false

/-- The request is an ATS request. -/
def ReqKind.isAts : ReqKind → Bool
  | .ats => true
  | .read => false
  | .exec => false
  | .write _ _ => false

/-! ## Page-table entries (30_encoding.md R138, R139); a 4-byte entry is zero-extended -/

/-- `pte.V`. -/
def pteV (pte : Word) : Bool := pte.getLsbD 0
/-- `pte.R`. -/
def pteR (pte : Word) : Bool := pte.getLsbD 1
/-- `pte.W`. -/
def pteW (pte : Word) : Bool := pte.getLsbD 2
/-- `pte.X`. -/
def pteX (pte : Word) : Bool := pte.getLsbD 3
/-- `pte.A`. -/
def pteA (pte : Word) : Bool := pte.getLsbD 6
/-- `pte.D`. -/
def pteD (pte : Word) : Bool := pte.getLsbD 7
/-- `pte.PPN`: bits 53 to 10 of an 8-byte entry (R138), bits 31 to 10 of a 4-byte one (R139), whose bits above
31 are 0 here. -/
def ptePpn (pte : Word) : BitVec 44 := pte.extractLsb' 10 44

/-- The permission check (R281): READ and EXEC need R, WRITE needs W, ATS needs nothing. -/
def permOk (kind : ReqKind) (pte : Word) : Bool :=
  match kind with
  | .read => pteR pte
  | .exec => pteR pte
  | .write _ _ => pteW pte
  | .ats => true

/-- The access/dirty check (R282): skipped for ATS and where hardware update is enabled. -/
def adOk (kind : ReqKind) (ade : Bool) (pte : Word) : Bool :=
  match kind with
  | .ats => true
  | .write _ _ => ade || (pteA pte && pteD pte)
  | .read => ade || pteA pte
  | .exec => ade || pteA pte

/-- The leaf permission (R283). -/
def leafPerm (ade : Bool) (pte : Word) : Perm :=
  { r := pteR pte && (ade || pteA pte), w := pteW pte && (ade || (pteA pte && pteD pte)) }

/-! ## Queue status -/

/-- The command loop runs (43_commands.md R360). -/
def CmdQueue.runnable (q : CmdQueue) : Bool :=
  q.state = .on && !q.cmdIll && !q.cmdMf && q.tail != q.head

/-- A record queue drops records without further effect (60_exceptions.md R431). -/
def RecQueue.drops (q : RecQueue) : Bool := !q.active || q.memFault || q.overflow

/-- A ring is full (R431, R433). -/
def RecQueue.full (q : RecQueue) : Bool := (q.tail + 1) % q.size = q.head

end Sys2Proof.Machine
end

