-- ==== Sys2Proof/Machine/Memory.lean ====
section
/-! DEFINITION. The memory primitive (00_scope.md R24, 20_memory.md R80 to R88). -/

namespace Sys2Proof.Machine

/-- What an address that memory does not list reads as. DESIGN CHOICE (log entry 3), unsafe: the spec gives memory
no contents; a proof could lean on the 0. -/
def unlistedByte : Byte := 0

/-- The byte at an address. -/
def Memory.byte : Memory → Nat → Byte
  | [], _ => unlistedByte
  | (a, b) :: rest, k => if a = k then b else Memory.byte rest k

/-- Memory with the byte at `k` replaced by `v`, kept in canonical form. -/
def Memory.setByte : Memory → Nat → Byte → Memory
  | [], k, v => if v = unlistedByte then [] else [(k, v)]
  | (a, b) :: rest, k, v =>
    if k < a then (if v = unlistedByte then (a, b) :: rest else (k, v) :: (a, b) :: rest)
    else if k = a then (if v = unlistedByte then rest else (k, v) :: rest)
    else (a, b) :: Memory.setByte rest k v

/-- The byte at a 64-bit address. -/
def Memory.at (m : Memory) (a : Word) : Byte := m.byte a.toNat

/-- The dword at an address: the bytes at `a` to `a + 7`, modulo 2^64 (R12, R82; log entry 21). -/
def Memory.dword (m : Memory) (a : Word) : Word :=
  dwordOfBytes (m.at a) (m.at (a + 1)) (m.at (a + 2)) (m.at (a + 3)) (m.at (a + 4)) (m.at (a + 5)) (m.at (a + 6)) (m.at (a + 7))

/-- The 32-bit value at an address (R83). -/
def Memory.word32 (m : Memory) (a : Word) : BitVec 32 :=
  word32OfBytes (m.at a) (m.at (a + 1)) (m.at (a + 2)) (m.at (a + 3))

/-- Memory after the bytes of `bs` have been stored from address `a` up, modulo 2^64. -/
def Memory.store (m : Memory) (a : Word) : List Byte → Memory
  | [] => m
  | b :: bs => Memory.store (m.setByte a.toNat b) (a + 1) bs

/-- The address of one of the `n` bytes from `a` up, modulo 2^64. -/
def inBytes (a : Word) (n : Nat) (x : Word) : Prop := (x - a).toNat < n

/-- One byte address lies in a failing range of the given direction. -/
def failsAt (ranges : List FailRange) (dir : Dir) (a : Word) : Bool :=
  ranges.any fun r =>
    (match dir with | .read => r.onRead | .write => r.onWrite) && decide (r.lo ≤ a.toNat) && decide (a.toNat ≤ r.hi)

/-- An access of `n` bytes fails as a whole if any of its bytes fails (R88). -/
def accessFails (ranges : List FailRange) (dir : Dir) (a : Word) (n : Nat) : Bool :=
  (List.range n).any fun i => failsAt ranges dir (a + BitVec.ofNat 64 i)

/-- `MemRead(a, n)` for `n` = 4 or 8, zero-extended to a dword (00_scope.md R24): `none` is `Fail`. -/
def State.readWord (s : State) (a : Word) (n : Nat) : Option Word :=
  if accessFails s.failing .read a n then none
  else if n = 4 then some ((s.mem.word32 a).setWidth 64) else some (s.mem.dword a)

/-- One dword of a structure: the latched value if its reader has read it already, else memory's (R87). -/
def State.readLatched (s : State) (latches : List Latch) (a : Word) : Option Word :=
  match latches.find? (fun l => l.addr = a) with
  | some l => l.value
  | none => s.readWord a 8

/-- `MemRead` of a structure of `k` dwords at `a`: its dwords, or `none` if any part fails (R88). -/
def State.readDwords (s : State) (latches : List Latch) (a : Word) : Nat → Option (List Word)
  | 0 => some []
  | k + 1 =>
    match s.readLatched latches a, s.readDwords latches (a + 8) k with
    | some d, some ds => some (d :: ds)
    | _, _ => none

end Sys2Proof.Machine
end

