-- ==== Sys2Proof/Machine/Modes.lean ====
section
/-! DEFINITION. The fields of the context words, the mode encodings and the mode geometry
(30_encoding.md R120 to R140). -/

namespace Sys2Proof.Machine

/-! ## Fields of a context's words (R125, R127, R129, R132, R133) -/

/-- The `MODE` field, bits 63 to 60, of `gatp`, `satp`, `pdtp` and `msiptp` (R127, R129, R131, R133). -/
def modeField (v : Word) : BitVec 4 := v.extractLsb' 60 4

/-- The `PPN` field, bits 43 to 0, of `gatp`, `satp`, `pdtp` and `msiptp` (R127, R129, R131, R133). -/
def ppnField (v : Word) : BitVec 44 := v.extractLsb' 0 44

/-- `GSCID` of a context (R127). -/
def Ctx.gscid (c : Ctx) : BitVec 16 := c.gatp.extractLsb' 44 16

/-- `PSCID` of a context (R132, R137). -/
def Ctx.pscid (c : Ctx) : BitVec 20 := c.ta.extractLsb' 12 20

/-- `tc.V` (R125). -/
def tcV (tc : Word) : Bool := tc.getLsbD 0
/-- `tc.EN_ATS` (R125). -/
def tcEnAts (tc : Word) : Bool := tc.getLsbD 1
/-- `tc.DTF` (R125). -/
def tcDtf (tc : Word) : Bool := tc.getLsbD 4
/-- `tc.PDTV` (R125). -/
def tcPdtv (tc : Word) : Bool := tc.getLsbD 5
/-- `tc.GADE` (R125). -/
def tcGade (tc : Word) : Bool := tc.getLsbD 7
/-- `tc.SADE` (R125). -/
def tcSade (tc : Word) : Bool := tc.getLsbD 8
/-- `tc.DPE` (R125). -/
def tcDpe (tc : Word) : Bool := tc.getLsbD 9
/-- `tc.SBE` (R125). -/
def tcSbe (tc : Word) : Bool := tc.getLsbD 10
/-- `tc.SXL` (R125). -/
def tcSxl (tc : Word) : Bool := tc.getLsbD 11
/-- `tc.APRQ` (R125): bit `TC_APRQ_BIT`. -/
def tcAprq (p : Params) (tc : Word) : Bool := tc.getLsbD p.tcAprqBit

/-- `TC_RSVD` (R126): bits 63 down to 12 except bit `TC_APRQ_BIT`. -/
def tcRsvd (p : Params) : Word := ~~~ lowMask 12 &&& ~~~ (1#64 <<< p.tcAprqBit)

/-- `DDTE_RSVD` (R122): the reserved bits of a non-leaf directory entry. -/
def ddteRsvd : Word := ~~~ (lowMask 1 ||| (lowMask 44 <<< 10))

/-- The `PPN` field, bits 53 to 10, of a non-leaf directory entry (R122, R135). -/
def dirPpn (de : Word) : BitVec 44 := de.extractLsb' 10 44

/-! ## Modes -/

/-- The geometry of a stage-1 mode other than Bare (R130, R140), under the context's `SXL` and `CAP`; `none` for
Bare and for an unsupported mode. -/
def sGeometry (cap : Cap) (sxl : Bool) (mode : BitVec 4) : Option Geometry :=
  if sxl then
    if mode = 8 ∧ cap.sv32 then some { levels := 2, indexBits := 10, rootBits := 0, pteBytes := 4, width := 32 } else none
  else if mode = 8 ∧ cap.sv39 then some { levels := 3, indexBits := 9, rootBits := 0, pteBytes := 8, width := 39 }
  else if mode = 9 ∧ cap.sv48 then some { levels := 4, indexBits := 9, rootBits := 0, pteBytes := 8, width := 48 }
  else if mode = 10 ∧ cap.sv57 then some { levels := 5, indexBits := 9, rootBits := 0, pteBytes := 8, width := 57 }
  else none

/-- The geometry of a stage-2 mode other than Bare (R128, R140), under `GXL` and `CAP`; `none` for Bare and for an
unsupported mode. -/
def gGeometry (cap : Cap) (gxl : Bool) (mode : BitVec 4) : Option Geometry :=
  if gxl then
    if mode = 8 ∧ cap.sv32x4 then some { levels := 2, indexBits := 10, rootBits := 2, pteBytes := 4, width := 34 } else none
  else if mode = 8 ∧ cap.sv39x4 then some { levels := 3, indexBits := 9, rootBits := 2, pteBytes := 8, width := 41 }
  else if mode = 9 ∧ cap.sv48x4 then some { levels := 4, indexBits := 9, rootBits := 2, pteBytes := 8, width := 50 }
  else if mode = 10 ∧ cap.sv57x4 then some { levels := 5, indexBits := 9, rootBits := 2, pteBytes := 8, width := 59 }
  else none

/-- A stage-1 mode is supported (R130): Bare, or a mode with a geometry. -/
def sModeSupported (cap : Cap) (sxl : Bool) (mode : BitVec 4) : Bool :=
  mode = 0 || (sGeometry cap sxl mode).isSome

/-- A stage-2 mode is supported (R128). -/
def gModeSupported (cap : Cap) (gxl : Bool) (mode : BitVec 4) : Bool :=
  mode = 0 || (gGeometry cap gxl mode).isSome

/-- The number of levels `P` of a process-directory mode (R131, 40_context.md R219): 0 for Bare, `none` for an
unsupported mode. -/
def pdLevels (cap : Cap) (mode : BitVec 4) : Option Nat :=
  if mode = 0 then some 0
  else if mode = 1 ∧ cap.pd8 then some 1
  else if mode = 2 ∧ cap.pd17 then some 2
  else if mode = 3 ∧ cap.pd20 then some 3
  else none

/-- An MSI page-table pointer's mode is supported (R133): Off, or Flat with MSI_FLAT. -/
def msiModeSupported (cap : Cap) (mode : BitVec 4) : Bool :=
  mode = 0 || (mode = 1 && cap.msiFlat)

/-- Stage 1 of a context is enabled (41_translation.md R259). -/
def Ctx.stage1On (c : Ctx) : Bool := modeField c.satp != 0

/-- Stage 2 of a context is enabled (41_translation.md R261). -/
def Ctx.stage2On (c : Ctx) : Bool := modeField c.gatp != 0

/-- The number of levels of a directory mode (40_context.md R206); 0 for the modes without a tree. -/
def DdtpMode.levels : DdtpMode → Nat
  | .off => 0
  | .bare => 0
  | .lvl1 => 1
  | .lvl2 => 2
  | .lvl3 => 3

/-- The fields of a `ddtp` register value (R120): `none` where the register file rejects it, because the mode is
reserved (R121) or a reserved bit is set (70_reset_and_hazards.md R477). The busy bit is not software's. -/
def Ddtp.ofWord (v : Word) : Option Ddtp :=
  if v.extractLsb' 5 5 ≠ 0 ∨ v.extractLsb' 54 10 ≠ 0 then none
  else
    let ppn : BitVec 44 := v.extractLsb' 10 44
    if v.extractLsb' 0 4 = 0#4 then some { mode := .off, ppn }
    else if v.extractLsb' 0 4 = 1#4 then some { mode := .bare, ppn }
    else if v.extractLsb' 0 4 = 2#4 then some { mode := .lvl1, ppn }
    else if v.extractLsb' 0 4 = 3#4 then some { mode := .lvl2, ppn }
    else if v.extractLsb' 0 4 = 4#4 then some { mode := .lvl3, ppn }
    else none

end Sys2Proof.Machine
end

