-- ==== Sys2Proof/Machine/Operands.lean ====
section
/-! DEFINITION. The operand forms of the commands (30_encoding.md R169, 43_commands.md R361 to R363) and of a
write request (42_msi.md R332). -/

namespace Sys2Proof.Machine

/-- The address operand of IOTINVAL, `ADDR << 12` (R161, R169). -/
def iotinvalAddress (addr : BitVec 52) : Word := addr.setWidth 64 <<< 12

/-- The completion address of IOFENCE.C, `ADDR << 2` (R162, R169). -/
def iofenceAddress (addr : BitVec 62) : Word := addr.setWidth 64 <<< 2

/-- The target device id of an ATS command (R169): `{DSEG, RID}` if `DSV`, else `RID` zero-extended. -/
def atsDevid (dsv : Bool) (dseg : BitVec 8) (rid : BitVec 16) : BitVec 24 :=
  if dsv then dseg ++ rid else rid.setWidth 24

/-- The process id of an ATS event (43_commands.md R385): `PID` if `PV`, else 0 (none). -/
def atsPid (pv : Bool) (pid : BitVec 20) : BitVec 20 := if pv then pid else 0

/-- The four invalidation scopes of 43_commands.md R363. -/
inductive Scope where
  | all
  | gscid (g : BitVec 16)
  | gscidPscid (g : BitVec 16) (p : BitVec 20)
  | exact (g : BitVec 16) (p : BitVec 20) (vpn : BitVec 52)
deriving DecidableEq, Repr

/-- The entries a scope covers (R363). -/
def Scope.covers : Scope → TlbEntry → Bool
  | .all, _ => true
  | .gscid g, e => e.gscid = g
  | .gscidPscid g p, e => e.gscid = g && e.pscid = p
  | .exact g p vpn, e => e.gscid = g && e.pscid = p && e.vpn = vpn

/-- The scope IOTINVAL.VMA chooses by its valid bits (R361). -/
def vmaScope (av : Bool) (pscid : BitVec 20) (pscv gv : Bool) (gscid : BitVec 16) (addr : BitVec 52) : Scope :=
  if !gv then .all
  else if !pscv then .gscid gscid
  else if !av then .gscidPscid gscid pscid
  else .exact gscid pscid addr

/-- The scope of a legal IOTINVAL.GVMA (R362). -/
def gvmaScope (gv : Bool) (gscid : BitVec 16) : Scope := if !gv then .all else .gscid gscid

/-- The number of bytes of a write (41_translation.md R250). -/
def AccessSize.bytes : AccessSize → Nat
  | .b1 => 1
  | .b2 => 2
  | .b4 => 4
  | .b8 => 8

/-- The value of a write's data: its `size` low bytes, zero-extended to 64 bits (42_msi.md R332; log entry 17). -/
def writeValue (data : Word) (size : AccessSize) : Word := (data.setWidth (8 * size.bytes)).setWidth 64

end Sys2Proof.Machine
end

