-- ==== Sys2Proof/Machine/Records.lean ====
section
/-! DEFINITION. Cause codes, event identifiers, and the records the block writes
(30_encoding.md R150 to R152, 60_exceptions.md R410, R421 to R426, R440). -/

namespace Sys2Proof.Machine

/-- The cause codes (60_exceptions.md R410). -/
def Cause.code : Cause → BitVec 12
  | .instrAccessFault => 1
  | .readAccessFault => 5
  | .writeAccessFault => 7
  | .instrPageFault => 12
  | .readPageFault => 13
  | .writePageFault => 15
  | .instrGuestPageFault => 20
  | .readGuestPageFault => 21
  | .writeGuestPageFault => 23
  | .allInboundDisallowed => 256
  | .ddtLoadFault => 257
  | .ddtInvalid => 258
  | .ddtMisconfigured => 259
  | .transactionTypeDisallowed => 260
  | .msiPteLoadFault => 261
  | .msiPteInvalid => 262
  | .msiPteMisconfigured => 263
  | .mrifAccessFault => 264
  | .pdtLoadFault => 265
  | .pdtInvalid => 266
  | .pdtMisconfigured => 267
  | .ddtCorrupt => 268
  | .pdtCorrupt => 269
  | .msiPtCorrupt => 270
  | .mrifCorrupt => 271
  | .internalDataPathError => 272
  | .msiWriteFault => 273
  | .ptCorrupt => 274

/-- The causes the block never raises (R411). -/
def Cause.neverRaised : Cause → Bool
  | .instrAccessFault => true
  | .instrPageFault => true
  | .instrGuestPageFault => true
  | .ddtCorrupt => true
  | .pdtCorrupt => true
  | .msiPtCorrupt => true
  | .mrifCorrupt => true
  | .internalDataPathError => true
  | .ptCorrupt => true
  | _ => false

/-- The event identifiers (R440). -/
def PerfEvent.id : PerfEvent → Nat
  | .urq => 1
  | .trq => 2
  | .atsRq => 3
  | .tlbMiss => 4
  | .ddWalk => 5
  | .pdWalk => 6
  | .sWalk => 7
  | .gWalk => 8

/-- The page-fault cause of a stage for a request (41_translation.md R284). -/
def pageFault (stage : Stage) (kind : ReqKind) : Cause :=
  match stage with
  | .s => if kind.isWrite then .writePageFault else .readPageFault
  | .g => if kind.isWrite then .writeGuestPageFault else .readGuestPageFault

/-- The access-fault cause for a request (41_translation.md R274, R284). -/
def accessFault (kind : ReqKind) : Cause := if kind.isWrite then .writeAccessFault else .readAccessFault

/-- The transaction type of a request (60_exceptions.md R421). -/
def ReqKind.ttyp : ReqKind → BitVec 6
  | .read => 2
  | .write _ _ => 3
  | .exec => 1
  | .ats => 8

/-- A guest-page fault, whose record holds the guest-physical address (R423). -/
def Cause.isGuestPage : Cause → Bool
  | .readGuestPageFault => true
  | .writeGuestPageFault => true
  | _ => false

/-- Dword 0 of a fault record (R150, R422, R424): DID, TTYP, PRIV = 0, PV, PID, CAUSE. -/
def faultHeader (cause : Cause) (r : Request) : Word :=
  r.devid ++ r.kind.ttyp ++ 0#1 ++ BitVec.ofBool (r.pid != 0) ++ r.pid ++ cause.code

/-- The four dwords of a fault record, dword 0 first (R424). -/
def faultRecord (cause : Cause) (r : Request) (gpa2 : Word) : List Word :=
  [faultHeader cause r, 0, r.iova, if cause.isGuestPage then gpa2 else 0]

/-- The header of a page request (R152, R426): DID, reserved, EXEC = 0, PRIV = 0, PV, PID, reserved. -/
def pageRequestHeader (r : Request) : Word :=
  r.devid ++ 0#5 ++ 0#1 ++ 0#1 ++ BitVec.ofBool (r.pid != 0) ++ r.pid ++ 0#12

/-- The payload of a page request (R152, R426): the page address, PRGI = 0, L, W and R set. -/
def pageRequestPayload (iova : Word) : Word := (iova.extractLsb' 12 52) ++ 0#9 ++ 1#1 ++ 1#1 ++ 1#1

/-- The two dwords of a page request, the header first (R426). -/
def pageRequest (r : Request) : List Word := [pageRequestHeader r, pageRequestPayload r.iova]

end Sys2Proof.Machine
end

