-- ==== Sys2Proof/Machine/Ops.lean ====
section
/-! DEFINITION. The named operations the meanings share: outputs, memory accesses, cache operations, the enqueue
contract, the report of a failed request (the block's one way of taking an exception), and the two ways a
command ends (advance, stop). -/

namespace Sys2Proof.Machine

/-! ## Outputs -/

/-- The block sends one output (log entry 13). -/
def State.emit (s : State) (o : Output) : State := { s with trace := o :: s.trace }

/-- `Signal(i)` (60_exceptions.md R445). -/
def State.signal (s : State) (i : IntReq) : State := s.emit (.signal i)

/-- A memory access is made (20_memory.md R81). -/
def State.logAccess (s : State) (dir : Dir) (a : Word) (n : Nat) (ok : Bool) : State := s.emit (.access dir a n ok)

/-- The scope tags of a request's events: those of its context once it is resolved, 0 before (R441; log entry 19).
A request that has its result emits no event. -/
def InFlight.tags (f : InFlight) : BitVec 16 × BitVec 20 :=
  match f.progress with
  | .resolving _ => (0, 0)
  | .translating ctx _ => (ctx.gscid, ctx.pscid)
  | .ending _ => (0, 0)

/-- `emit Event(e)` by a request (60_exceptions.md R440, R441). -/
def State.event (s : State) (f : InFlight) (e : PerfEvent) : State :=
  s.emit (.event e f.req.devid f.req.pid f.tags.1 f.tags.2)

/-! ## Memory writes -/

/-- `MemWrite(a, n, v)` of R24, the bytes given lowest address first: the state after it, and whether it
succeeded. A failed write stores nothing (log entry 22). -/
def State.memWrite (s : State) (a : Word) (bs : List Byte) : State × Bool :=
  if accessFails s.failing .write a bs.length then (s.logAccess .write a bs.length false, false)
  else ({ s with mem := s.mem.store a bs }.logAccess .write a bs.length true, true)

/-! ## Caches (10_state.md R39 to R47) -/

/-- The list with `e` in the place of the element that `same` picks out, or at the end if there is none. -/
def upsert {E : Type} (same : E → Bool) (e : E) (l : List E) : List E :=
  if l.any same then l.map (fun x => if same x then e else x) else l ++ [e]

/-- A new empty generation becomes current (R46); the old one stays for those that pin it (R45). -/
def Cache.replace {E : Type} (c : Cache E) : Cache E :=
  { current := { number := c.current.number + 1, entries := [] }, pinned := c.current :: c.pinned }

/-- The cache without the old generations nobody pins any more (R45). -/
def Cache.release {E : Type} (c : Cache E) (pins : List (Option Nat)) : Cache E :=
  { c with pinned := c.pinned.filter fun g => pins.contains (some g.number) }

/-- The cache with its current map changed. -/
def Cache.setEntries {E : Type} (c : Cache E) (es : List E) : Cache E :=
  { c with current := { c.current with entries := es } }

/-- The entry is that of the key `(devid, pid)` (R39). -/
def CtxEntry.hasKey (devid : BitVec 24) (pid : BitVec 20) (e : CtxEntry) : Bool :=
  e.ctx.devid = devid && e.ctx.pid = pid

/-- The entry is that of the key `(gscid, pscid, vpn)` (R43). -/
def TlbEntry.hasKey (gscid : BitVec 16) (pscid : BitVec 20) (vpn : BitVec 52) (e : TlbEntry) : Bool :=
  e.gscid = gscid && e.pscid = pscid && e.vpn = vpn

/-- The current entry of a context-cache key, valid or not (R39). -/
def State.ctxEntry (s : State) (devid : BitVec 24) (pid : BitVec 20) : Option CtxEntry :=
  s.ctxCache.current.entries.find? (CtxEntry.hasKey devid pid)

/-- The current entry of an IOTLB key, valid or not (R43). -/
def State.tlbEntry (s : State) (gscid : BitVec 16) (pscid : BitVec 20) (vpn : BitVec 52) : Option TlbEntry :=
  s.iotlb.current.entries.find? (TlbEntry.hasKey gscid pscid vpn)

/-- A context enters the current generation, replacing the entry of its key (R40). -/
def State.insertCtx (s : State) (ctx : Ctx) : State :=
  let entries := upsert (CtxEntry.hasKey ctx.devid ctx.pid) { ctx, valid := true } s.ctxCache.current.entries
  { s with ctxCache := s.ctxCache.setEntries entries }

/-- An entry enters the current IOTLB generation, replacing the entry of its key (R43). -/
def State.insertTlb (s : State) (e : TlbEntry) : State :=
  { s with iotlb := s.iotlb.setEntries (upsert (TlbEntry.hasKey e.gscid e.pscid e.vpn) e s.iotlb.current.entries) }

/-- The invalidation-scope functions of 43_commands.md R363. -/
def State.invalTlb (s : State) (scope : Scope) : State :=
  let entries := s.iotlb.current.entries.map fun e => if scope.covers e then e.invalidate else e
  { s with iotlb := s.iotlb.setEntries entries }

/-- The valid bits of the context-cache entries that `which` picks out are cleared (43_commands.md R380, R381). -/
def State.invalCtx (s : State) (which : CtxEntry → Bool) : State :=
  let entries := s.ctxCache.current.entries.map fun e => if which e then e.invalidate else e
  { s with ctxCache := s.ctxCache.setEntries entries }

/-! ## Requests in flight (10_state.md R48) -/

/-- The old generations that no request in flight pins are released (10_state.md R45). -/
def State.releaseGenerations (s : State) : State :=
  { s with ctxCache := s.ctxCache.release (s.inflight.map InFlight.ctxGen),
           iotlb := s.iotlb.release (s.inflight.map InFlight.tlbGen) }

/-- The request in flight with the given number. -/
def State.lookupInflight (s : State) (id : Nat) : Option InFlight := s.inflight.find? (fun f => f.id = id)

/-- The record of a request in flight is replaced by `f`. -/
def State.setInflight (s : State) (f : InFlight) : State :=
  { s with inflight := s.inflight.map fun g => if g.id = f.id then f else g }

/-- The request goes on at `p`; what it had read of a structure is used up. -/
def State.goOn (s : State) (f : InFlight) (p : Progress) : State :=
  s.setInflight { f with progress := p, latches := [] }

/-- The request has its result `r`, and returns it in a step of its own: invalidations and fences that come in
between do not change it (20_memory.md R93, 43_commands.md R378). -/
def State.conclude (s : State) (f : InFlight) (r : Result) : State := s.goOn f (.ending r)

/-- The request returns its result `r` (41_translation.md R251); nothing of it survives (10_state.md R48). -/
def State.finish (s : State) (f : InFlight) (r : Result) : State :=
  ({ s with inflight := s.inflight.filter fun g => g.id != f.id }.emit (.result f.id r)).releaseGenerations

/-! ## The enqueue contract and the report of a failed request (60_exceptions.md R420 to R431) -/

/-- `Enqueue(Q, rec, n)` of R431 for the queue `q`, whose interrupt is `int`: the queue and the state after it. -/
def enqueue (q : RecQueue) (int : IntReq) (rec : List Word) (s : State) : RecQueue × State :=
  if q.drops then (q, s)
  else if q.full then ({ q with overflow := true }, s)
  else
    match s.memWrite (q.base + BitVec.ofNat 64 (q.tail * (8 * rec.length))) (leDwords rec) with
    | (s1, false) => ({ q with memFault := true }, s1)
    | (s1, true) =>
      ({ q with tail := (q.tail + 1) % q.size, ip := true }, if q.ip then s1 else s1.signal int)

/-- A fault record is enqueued on the fault queue (R431). -/
def State.enqueueFq (s : State) (rec : List Word) : State :=
  let (q, s1) := enqueue s.fq .fq rec s
  { s1 with fq := q }

/-- A page request is enqueued on the page-request queue (R431). -/
def State.enqueuePq (s : State) (rec : List Word) : State :=
  let (q, s1) := enqueue s.pq .pq rec s
  { s1 with pq := q }

/-- `Report(cause, dtf)` of a failed context resolution, for every kind of request (R420, 90_conflicts.md C1). -/
def State.reportContext (s : State) (r : Request) (cause : Cause) (dtf : Bool) : State :=
  if dtf then s else s.enqueueFq (faultRecord cause r 0)

/-- The report of a request that failed with its context resolved (R420, R425): a fault record unless `DTF`; for
an ATS request a page request if `APRQ`, and no fault record. -/
def State.reportTranslation (s : State) (r : Request) (ctx : Ctx) (cause : Cause) (gpa2 : Word) : State :=
  if r.kind.isAts then
    if tcAprq s.params ctx.tc then s.enqueuePq (pageRequest r) else s
  else if tcDtf ctx.tc then s
  else s.enqueueFq (faultRecord cause r gpa2)

/-! ## How a command ends (43_commands.md R366 to R371) -/

/-- `Continue`: the head advances by one (R368). -/
def State.retire (s : State) : State := { s with cq := { s.cq with head := (s.cq.head + 1) % s.cq.size } }

/-- `Illegal` (R370): `cmd_ill` is set, CQ_INT is signalled, the queue stops with its head on the command. -/
def State.stopIllegal (s : State) : State :=
  { s with cq := { s.cq with cmdIll := true }, thread := .idle }.signal .cq

/-- A memory fault of the command queue (R366, R375, R376): `cmd_mf` is set, CQ_INT is signalled, the queue stops
with its head unchanged. -/
def State.stopMemFault (s : State) : State :=
  { s with cq := { s.cq with cmdMf := true }, thread := .idle }.signal .cq

end Sys2Proof.Machine
end

