-- ==== Sys2Proof/Machine/Context.lean ====
section
/-! DEFINITION. Translation context resolution (40_context.md R200 to R231). Each `ctx…Step` is one step of a
request that is resolving its context: one memory access or one action on the context cache. -/

namespace Sys2Proof.Machine

/-! ## Pure parts of the walk -/

/-- What a device context or process context leads to (40_context.md R213 to R227). -/
inductive CtxOutcome where
  /-- The resolution fails with a cause and the fault-reporting-disabled flag that applies (R200). -/
  | fail (cause : Cause) (dtf : Bool)
  /-- The context is resolved. -/
  | done (ctx : Ctx)
  /-- A process directory of `levels` levels is to be walked (R219). -/
  | processDirectory (ctx : Ctx) (levels : Nat)
deriving DecidableEq, Repr

/-- The synthesized pass-through context of mode Bare (R205): `tc = 1`, everything else 0. -/
def bareCtx (devid : BitVec 24) (pid : BitVec 20) : Ctx :=
  { devid, pid, tc := 1, gatp := 0, satp := 0, ta := 0, msiptp := 0, msiAddrMask := 0, msiAddrPattern := 0 }

/-- The number of device-id bits a tree of `levels` levels takes (R207). -/
def devidWidth (p : Params) (levels : Nat) : Nat :=
  if levels = 1 then (if p.dcExt then 6 else 7)
  else if levels = 2 then (if p.dcExt then 15 else 16)
  else 24

/-- The bits the leaf index consumes (R208, R210). -/
def leafBits (p : Params) : Nat := if p.dcExt then 6 else 7

/-- The number of dwords of a device context (R211). -/
def dcDwords (p : Params) : Nat := if p.dcExt then 8 else 4

/-- The address of the non-leaf device-directory entry of level `lvl` in the page at `page` (R208). -/
def ddEntryAddr (p : Params) (devid : BitVec 24) (lvl : Nat) (page : Word) : Word :=
  page + ((devid.setWidth 64 >>> (leafBits p + 9 * (lvl - 1))) &&& lowMask 9) * 8

/-- The address of the device context in the leaf page at `page` (R210, R211). -/
def dcAddr (p : Params) (devid : BitVec 24) (page : Word) : Word :=
  page + (devid.setWidth 64 &&& lowMask (leafBits p)) * BitVec.ofNat 64 (8 * dcDwords p)

/-- The address of the non-leaf process-directory entry of level `lvl` in the page at `page` (R222). -/
def pdEntryAddr (pid : BitVec 20) (lvl : Nat) (page : Word) : Word :=
  page + ((pid.setWidth 64 >>> (8 + 9 * (lvl - 1))) &&& lowMask 9) * 8

/-- The address of the process context in the leaf page at `page` (R223). -/
def pcAddr (pid : BitVec 20) (page : Word) : Word := page + (pid.setWidth 64 &&& lowMask 8) * 16

/-- A non-leaf directory entry (R208, R209, R222): the next page, or the cause of the first failing check. -/
def dirEntry (entry : Option Word) (load invalid misconfigured : Cause) : Except Cause Word :=
  match entry with
  | none => .error load
  | some de =>
    if !de.getLsbD 0 then .error invalid
    else if de &&& ddteRsvd ≠ 0 then .error misconfigured
    else .ok (pageBase (dirPpn de))

/-- The context the device context's dwords make (R212), `ds` from dword 0 up. -/
def deviceCtx (p : Params) (r : Request) (ds : List Word) : Ctx where
  devid := r.devid
  pid := r.pid
  tc := ds.getD 0 0
  gatp := ds.getD 1 0
  ta := ds.getD 2 0
  satp := ds.getD 3 0
  msiptp := if p.dcExt then ds.getD 4 0 else 0
  msiAddrMask := if p.dcExt then ds.getD 5 0 else 0
  msiAddrPattern := if p.dcExt then ds.getD 6 0 else 0

/-- The checks of a valid device context (R215), in its order. -/
def dcMisconfigured (p : Params) (c : Ctx) : Bool :=
  decide (c.tc &&& tcRsvd p ≠ 0)
  || tcSbe c.tc
  || !gModeSupported p.cap p.gxl (modeField c.gatp)
  || (!tcPdtv c.tc && !sModeSupported p.cap (tcSxl c.tc) (modeField c.satp))
  || (tcPdtv c.tc && (pdLevels p.cap (modeField c.satp)).isNone)
  || !msiModeSupported p.cap (modeField c.msiptp)
  || ((tcAprq p c.tc || tcEnAts c.tc) && !p.cap.ats)

/-- The number of process-id bits a directory of `levels` levels takes (R220). -/
def pidWidth (levels : Nat) : Nat := if levels = 1 then 8 else if levels = 2 then 17 else 20

/-- The process selection of a checked device context (R216 to R220). -/
def selectProcess (p : Params) (c : Ctx) : CtxOutcome :=
  if !tcPdtv c.tc then
    if c.pid ≠ 0 then .fail .transactionTypeDisallowed (tcDtf c.tc) else .done c
  else if c.pid = 0 ∧ !tcDpe c.tc then .done { c with satp := 0 }
  else
    match pdLevels p.cap (modeField c.satp) with
    | none => .fail .ddtMisconfigured (tcDtf c.tc)
    | some 0 => .done c
    | some levels =>
      if 2 ^ pidWidth levels ≤ c.pid.toNat then .fail .transactionTypeDisallowed (tcDtf c.tc)
      else .processDirectory c levels

/-- What a device context leads to (R211 to R220); `none` is a failed read. -/
def deviceContext (p : Params) (r : Request) (dwords : Option (List Word)) : CtxOutcome :=
  match dwords with
  | none => .fail .ddtLoadFault false
  | some ds =>
    let c := deviceCtx p r ds
    if !tcV c.tc then .fail .ddtInvalid (tcDtf c.tc)
    else if dcMisconfigured p c then .fail .ddtMisconfigured (tcDtf c.tc)
    else selectProcess p c

/-- The reserved bits of a process context's `ta` (30_encoding.md R137): bits 11 to 3 and 63 to 32. -/
def pcTaRsvd : Word := (lowMask 9 <<< 3) ||| (lowMask 32 <<< 32)

/-- What a process context leads to (R224 to R227); `none` is a failed read. -/
def processContext (p : Params) (c : Ctx) (dwords : Option (List Word)) : CtxOutcome :=
  match dwords with
  | none => .fail .pdtLoadFault (tcDtf c.tc)
  | some ds =>
    let pta := ds.getD 0 0
    let pfsc := ds.getD 1 0
    if !pta.getLsbD 0 then .fail .pdtInvalid (tcDtf c.tc)
    else if pta &&& pcTaRsvd ≠ 0 ∨ !sModeSupported p.cap (tcSxl c.tc) (modeField pfsc) then
      .fail .pdtMisconfigured (tcDtf c.tc)
    else .done { c with ta := pta, satp := pfsc }

/-! ## The steps -/

/-- The request goes on to the report of a failed resolution (R229). -/
def ctxFail (f : InFlight) (cause : Cause) (dtf : Bool) (s : State) : State :=
  s.goOn f (.resolving (.report cause dtf))

/-- The phase a tree walk is in, with `lvl` non-leaf levels still to read, at the page `page` (R208). -/
def ddPhase (lvl : Nat) (page : Word) : CtxPhase := if lvl = 0 then .ddLeaf page else .ddEntry lvl page

/-- The same for the process directory (R222). -/
def pdPhase (ctx : Ctx) (lvl : Nat) (page : Word) : CtxPhase := if lvl = 0 then .pdLeaf ctx page else .pdEntry ctx lvl page

/-- What follows a device or process context (R216 to R227). -/
def ctxContinue (f : InFlight) (o : CtxOutcome) (s : State) : State :=
  match o with
  | .fail cause dtf => ctxFail f cause dtf s
  | .done ctx => s.goOn f (.resolving (.insert ctx))
  | .processDirectory ctx levels => s.goOn f (.resolving (pdPhase ctx (levels - 1) (pageBase (ppnField ctx.satp))))

/-- The start of a request: its event (41_translation.md R253), then the context-cache lookup, which pins the
current generation (R201). -/
def ctxLookupStep (f : InFlight) (s : State) : State :=
  let s1 := s.event f (if f.req.kind.isAts then .atsRq else .urq)
  let f1 := { f with ctxGen := some s.ctxCache.current.number }
  match s.ctxEntry f.req.devid f.req.pid with
  | some e => if e.valid then s1.goOn f1 (.translating e.ctx .lookup) else s1.goOn f1 (.resolving .makeRoom)
  | none => s1.goOn f1 (.resolving .makeRoom)

/-- Capacity replacement of the context cache (R202, 10_state.md R46): the comparison, the swap to a new empty
generation and the pin of it are one step (log entry 2). -/
def ctxMakeRoomStep (f : InFlight) (s : State) : State :=
  if s.params.ctxCacheCapacity ≤ s.ctxCache.current.entries.length then
    let c := s.ctxCache.replace
    ({ s with ctxCache := c }.goOn { f with ctxGen := some c.current.number } (.resolving .walk)).releaseGenerations
  else s.goOn f (.resolving .walk)

/-- The start of the directory walk (R203 to R207): `ddtp` is sampled in this step, after the capacity replacement;
other agents may act between the two (log entry 2). -/
def ctxWalkStep (f : InFlight) (s : State) : State :=
  match s.ddtp.mode with
  | .off => ctxFail f .allInboundDisallowed false s
  | .bare => s.goOn f (.resolving (.insert (bareCtx f.req.devid f.req.pid)))
  | m =>
    if 2 ^ devidWidth s.params m.levels ≤ f.req.devid.toNat then ctxFail f .transactionTypeDisallowed false s
    else s.goOn f (.resolving (ddPhase (m.levels - 1) (pageBase s.ddtp.ppn)))

/-- One non-leaf device-directory entry (R208). -/
def ctxDdEntryStep (f : InFlight) (lvl : Nat) (page : Word) (s : State) : State :=
  let a := ddEntryAddr s.params f.req.devid lvl page
  let r := s.readWord a 8
  let s1 := (s.event f .ddWalk).logAccess .read a 8 r.isSome
  match dirEntry r .ddtLoadFault .ddtInvalid .ddtMisconfigured with
  | .error cause => ctxFail f cause false s1
  | .ok next => s1.goOn f (.resolving (ddPhase (lvl - 1) next))

/-- The device context (R210 to R220). -/
def ctxDdLeafStep (f : InFlight) (page : Word) (s : State) : State :=
  let a := dcAddr s.params f.req.devid page
  let r := s.readDwords f.latches a (dcDwords s.params)
  let s1 := (s.event f .ddWalk).logAccess .read a (8 * dcDwords s.params) r.isSome
  ctxContinue f (deviceContext s.params f.req r) s1

/-- One non-leaf process-directory entry (R222). -/
def ctxPdEntryStep (f : InFlight) (ctx : Ctx) (lvl : Nat) (page : Word) (s : State) : State :=
  let a := pdEntryAddr f.req.pid lvl page
  let r := s.readWord a 8
  let s1 := (s.event f .pdWalk).logAccess .read a 8 r.isSome
  match dirEntry r .pdtLoadFault .pdtInvalid .pdtMisconfigured with
  | .error cause => ctxFail f cause (tcDtf ctx.tc) s1
  | .ok next => s1.goOn f (.resolving (pdPhase ctx (lvl - 1) next))

/-- The process context (R223 to R227). -/
def ctxPdLeafStep (f : InFlight) (ctx : Ctx) (page : Word) (s : State) : State :=
  let a := pcAddr f.req.pid page
  let r := s.readDwords f.latches a 2
  let s1 := (s.event f .pdWalk).logAccess .read a 16 r.isSome
  ctxContinue f (processContext s.params ctx r) s1

/-- The resolved context is inserted in the generation the request pins, if that is still current (R202). -/
def ctxInsertStep (f : InFlight) (ctx : Ctx) (s : State) : State :=
  let s1 := if f.ctxGen = some s.ctxCache.current.number then s.insertCtx ctx else s
  s1.goOn f (.translating ctx .lookup)

/-- The report of a failed resolution, whose cause is the result (R229). -/
def ctxReportStep (f : InFlight) (cause : Cause) (dtf : Bool) (s : State) : State :=
  (s.reportContext f.req cause dtf).conclude f (.fault cause)

/-- One step of a request that is resolving its context. -/
def ctxStep (f : InFlight) (p : CtxPhase) (s : State) : State :=
  match p with
  | .lookup => ctxLookupStep f s
  | .makeRoom => ctxMakeRoomStep f s
  | .walk => ctxWalkStep f s
  | .ddEntry lvl page => ctxDdEntryStep f lvl page s
  | .ddLeaf page => ctxDdLeafStep f page s
  | .pdEntry ctx lvl page => ctxPdEntryStep f ctx lvl page s
  | .pdLeaf ctx page => ctxPdLeafStep f ctx page s
  | .insert ctx => ctxInsertStep f ctx s
  | .report cause dtf => ctxReportStep f cause dtf s

end Sys2Proof.Machine
end

