-- ==== Sys2Proof/Machine/Msi.lean ====
section
/-! DEFINITION. MSI interception (42_msi.md R320 to R344). Each `msi…Step` and `mrif…Step` is one memory access of
a write that the MSI path has taken. -/

namespace Sys2Proof.Machine

/-- The MSI address test (R320). -/
def msiMatch (c : Ctx) (gpa : Word) : Bool :=
  modeField c.msiptp = 1
  && (((gpa >>> 12) ^^^ c.msiAddrPattern) &&& ~~~ c.msiAddrMask) &&& lowMask 52 = 0

/-- The interrupt-file number (R322). -/
def msiIfn (c : Ctx) (gpa : Word) : Word := extractBits (gpa >>> 12) (c.msiAddrMask &&& lowMask 52)

/-- The address of the MSI page-table entry (R324, R326). -/
def msiPteAddr (c : Ctx) (ifn : Word) : Word := pageBase (ppnField c.msiptp) + ifn * 16

/-- The notice identifier `{NID_HI, NID_LO}` (30_encoding.md R143, R337). -/
def noticeId (m1 : Word) : BitVec 11 := m1.extractLsb' 60 1 ++ m1.extractLsb' 0 10

/-- The notice address `NPPN << 12` (R337). -/
def noticeAddr (m1 : Word) : Word := pageBase (m1.extractLsb' 10 44)

/-- The MRIF's address `MRIF_ADDR << 9` (30_encoding.md R143, R335). -/
def mrifBase (m0 : Word) : Word := (m0.extractLsb' 7 47).setWidth 64 <<< 9

/-- The address of the pending dword of an identity's group (R335). -/
def mrifPendingAddr (m0 id : Word) : Word := mrifBase m0 + (id >>> 6) * 16

/-- What an MSI page-table entry leads to (R326 to R334). -/
inductive MsiOutcome where
  | fail (cause : Cause)
  | forward (target : Word)
  | mrif (pa id m1 : Word)
deriving DecidableEq, Repr

/-- The checks of an MSI page-table entry and of a MRIF write of identity `id` (R326 to R334); `none` is a failed
read. -/
def msiEntry (cap : Cap) (id gpa : Word) (dwords : Option (List Word)) : MsiOutcome :=
  match dwords with
  | none => .fail .msiPteLoadFault
  | some ds =>
    let m0 := ds.getD 0 0
    let m1 := ds.getD 1 0
    if !m0.getLsbD 0 || m0.getLsbD 63 then .fail .msiPteInvalid
    else if m0.extractLsb' 1 2 = 3#2 then .forward (pageBase (m0.extractLsb' 10 44) ||| (gpa &&& lowMask 12))
    else if m0.extractLsb' 1 2 = 1#2 ∧ cap.msiMrif then
      if gpa.extractLsb' 0 2 ≠ 0 ∨ 2047 < id.toNat then .fail .msiPteMisconfigured
      else .mrif (mrifPendingAddr m0 id) id m1
    else .fail .msiPteMisconfigured

/-- The request goes on to the report of a failed translation (41_translation.md R264). -/
def xlateFail (f : InFlight) (ctx : Ctx) (cause : Cause) (gpa2 : Word) (s : State) : State :=
  s.goOn f (.translating ctx (.report cause gpa2))

/-- The entry of the MSI path (R321 to R323): an interrupt-file number out of range fails before any read. -/
def msiStart (f : InFlight) (ctx : Ctx) (gpa data : Word) (size : AccessSize) (s : State) : State :=
  if s.params.msiIfnLimit ≤ (msiIfn ctx gpa).toNat then xlateFail f ctx .msiPteLoadFault 0 s
  else s.goOn f (.translating ctx (.msiPte gpa (msiIfn ctx gpa) data size))

/-- The MSI page-table entry (R326 to R334). The identity of a MRIF write is its data (R332). -/
def msiPteStep (f : InFlight) (ctx : Ctx) (gpa ifn data : Word) (size : AccessSize) (s : State) : State :=
  let a := msiPteAddr ctx ifn
  let r := s.readDwords f.latches a 2
  let s1 := s.logAccess .read a 16 r.isSome
  match msiEntry s.params.cap (writeValue data size) gpa r with
  | .fail cause => xlateFail f ctx cause 0 s1
  | .forward target => s1.goOn f (.translating ctx (.msiForward target data size))
  | .mrif pa id m1 => s1.goOn f (.translating ctx (.mrifPendingRead pa id m1))

/-- Basic mode: the device's write at the target (R331). -/
def msiForwardStep (f : InFlight) (ctx : Ctx) (target data : Word) (size : AccessSize) (s : State) : State :=
  match s.memWrite target (leBytes size.bytes data) with
  | (s1, false) => xlateFail f ctx .msiWriteFault 0 s1
  | (s1, true) => s1.conclude f .msiDone

/-- MRIF mode: the pending dword is read (R335). -/
def mrifPendingReadStep (f : InFlight) (ctx : Ctx) (pa id m1 : Word) (s : State) : State :=
  let r := s.readWord pa 8
  let s1 := s.logAccess .read pa 8 r.isSome
  match r with
  | none => xlateFail f ctx .mrifAccessFault 0 s1
  | some pending => s1.goOn f (.translating ctx (.mrifPendingWrite pa id m1 pending))

/-- MRIF mode: the pending dword is written back with bit `id mod 64` set (R335). -/
def mrifPendingWriteStep (f : InFlight) (ctx : Ctx) (pa id m1 pending : Word) (s : State) : State :=
  match s.memWrite pa (leBytes 8 (pending ||| (1#64 <<< (id.toNat % 64)))) with
  | (s1, false) => xlateFail f ctx .mrifAccessFault 0 s1
  | (s1, true) => s1.goOn f (.translating ctx (.mrifEnable pa id m1))

/-- MRIF mode: the enable dword is read; without the enable bit the path ends (R336). -/
def mrifEnableStep (f : InFlight) (ctx : Ctx) (pa id m1 : Word) (s : State) : State :=
  let r := s.readWord (pa + 8) 8
  let s1 := s.logAccess .read (pa + 8) 8 r.isSome
  match r with
  | none => xlateFail f ctx .mrifAccessFault 0 s1
  | some enable =>
    if enable.getLsbD (id.toNat % 64) then s1.goOn f (.translating ctx (.mrifNotice m1)) else s1.conclude f .msiDone

/-- MRIF mode: the notice (R337). -/
def mrifNoticeStep (f : InFlight) (ctx : Ctx) (m1 : Word) (s : State) : State :=
  match s.memWrite (noticeAddr m1) (leBytes 4 ((noticeId m1).setWidth 64)) with
  | (s1, false) => xlateFail f ctx .msiWriteFault 0 s1
  | (s1, true) => s1.conclude f .msiDone

end Sys2Proof.Machine
end

