-- ==== Sys2Proof/Machine/Translate.lean ====
section
/-! DEFINITION. Two-stage translation (41_translation.md R253 to R293). Each `xlate…Step` is one step of a request
with a resolved context: one page-table entry, or one action on the IOTLB. -/

namespace Sys2Proof.Machine

/-! ## Pure parts of the stage walk -/

/-- The range check before the root level (R272). -/
def rangeOk (stage : Stage) (width : Nat) (a : Word) : Bool :=
  if stage = .s ∧ 32 < width then a >>> (width - 1) = 0 || a >>> (width - 1) = lowMask (65 - width)
  else a >>> width = 0

/-- The bits below the index of the current level: `skip` of R273. -/
def WalkState.skip (w : WalkState) : Nat := 12 + w.geom.indexBits * w.level

/-- The index bits of the current level: `iw` of R273. -/
def WalkState.indexWidth (w : WalkState) : Nat :=
  w.geom.indexBits + (if w.level + 1 = w.geom.levels then w.geom.rootBits else 0)

/-- The address of the entry the walk reads next (R273). -/
def WalkState.entryAddr (w : WalkState) : Word :=
  w.base + ((w.addr >>> w.skip) &&& lowMask w.indexWidth) * BitVec.ofNat 64 w.geom.pteBytes

/-- The walk at its root (R271, 10_state.md R50). -/
def startWalk (stage : Stage) (geom : Geometry) (root : BitVec 44) (a m : Word) (p : Perm) : WalkState :=
  { stage, geom, level := geom.levels - 1, base := pageBase root, addr := a, mask := m, perm := p }

/-- What a page-table entry leads to (R277 to R283). -/
inductive PteOutcome where
  /-- A page fault of the stage. -/
  | bad
  /-- A pointer to the next level's table. -/
  | pointer (base : Word)
  /-- A leaf. -/
  | leaf (out mask : Word) (perm : Perm)
deriving DecidableEq, Repr

/-- The checks of a page-table entry, in order (R277 to R283). -/
def walkEntry (kind : ReqKind) (ade : Bool) (w : WalkState) (pte : Word) : PteOutcome :=
  if !pteV pte then .bad
  else if !pteR pte && !pteW pte && !pteX pte then
    if w.level = 0 then .bad else .pointer (pageBase (ptePpn pte))
  else if pteW pte && !pteR pte then .bad
  else if (ptePpn pte).setWidth 64 &&& lowMask (w.geom.indexBits * w.level) ≠ 0 then .bad
  else if !permOk kind pte then .bad
  else if !adOk kind ade pte then .bad
  else .leaf ((pageBase (ptePpn pte) &&& ~~~ lowMask w.skip) ||| (w.addr &&& lowMask w.skip)) (lowMask w.skip) (leafPerm ade pte)

/-- The walk at the next level (R278). -/
def WalkState.descend (w : WalkState) (base : Word) : WalkState := { w with level := w.level - 1, base }

/-! ## Ends of the walk -/

/-- The address a hit gives (R255). -/
def hitAddr (e : TlbEntry) (iova : Word) : Word := e.ppn ++ iova.extractLsb' 0 12

/-- A successful walk (R262, R263): the translation goes on to the insertion, unless its guest-physical address passes the MSI
address test. -/
def xlateFinish (f : InFlight) (ctx : Ctx) (gpa spa m : Word) (p : Perm) (s : State) : State :=
  if msiMatch ctx gpa then s.conclude f (.ok spa m p) else s.goOn f (.translating ctx (.tlbRoom spa m p))

/-- Stage 2 of the data path, from the guest-physical address `gpa` with the mask and permission so far (R261). -/
def xlateStage2 (f : InFlight) (ctx : Ctx) (gpa m : Word) (p : Perm) (s : State) : Host.Outcome State Fault Refusal :=
  if ctx.stage2On then
    match gGeometry s.params.cap s.params.gxl (modeField ctx.gatp) with
    | none => .fault .unsupportedMode
    | some geom =>
      if rangeOk .g geom.width gpa then
        .next (s.goOn f (.translating ctx (.gWalk (startWalk .g geom (ppnField ctx.gatp) gpa m p))))
      else .next (xlateFail f ctx (pageFault .g f.req.kind) gpa s)
  else .next (xlateFinish f ctx gpa gpa m p s)

/-- After stage 1: a write that the MSI filter matches leaves for the MSI path (R260), the rest goes on to stage 2. -/
def xlateAfterStage1 (f : InFlight) (ctx : Ctx) (gpa m : Word) (p : Perm) (s : State) : Host.Outcome State Fault Refusal :=
  match f.req.kind with
  | .write data size => if msiMatch ctx gpa then .next (msiStart f ctx gpa data size s) else xlateStage2 f ctx gpa m p s
  | .read => xlateStage2 f ctx gpa m p s
  | .exec => xlateStage2 f ctx gpa m p s
  | .ats => xlateStage2 f ctx gpa m p s

/-- The stage-1 walk is about to read the entry of `w`: with stage 2 on, the entry's address is translated first
(R273, R276). -/
def xlateStage1Entry (f : InFlight) (ctx : Ctx) (w : WalkState) (s : State) : Host.Outcome State Fault Refusal :=
  if ctx.stage2On then
    match gGeometry s.params.cap s.params.gxl (modeField ctx.gatp) with
    | none => .fault .unsupportedMode
    | some geom =>
      if rangeOk .g geom.width w.entryAddr then
        .next (s.goOn f (.translating ctx (.sImplicit w (startWalk .g geom (ppnField ctx.gatp) w.entryAddr (lowMask 64) Perm.rw))))
      else .next (xlateFail f ctx (pageFault .g f.req.kind) w.entryAddr s)
  else .next (s.goOn f (.translating ctx (.sWalk w w.entryAddr)))

/-- Stage 1 of the data path (R259). -/
def xlateStage1 (f : InFlight) (ctx : Ctx) (s : State) : Host.Outcome State Fault Refusal :=
  match sGeometry s.params.cap (tcSxl ctx.tc) (modeField ctx.satp) with
  | none => .fault .unsupportedMode
  | some geom =>
    if rangeOk .s geom.width f.req.iova then
      xlateStage1Entry f ctx (startWalk .s geom (ppnField ctx.satp) f.req.iova (lowMask 64) Perm.rw) s
    else .next (xlateFail f ctx (pageFault .s f.req.kind) 0 s)

/-- Pass-through, with both stages Bare (R258): a matching write leaves for the MSI path, everything else gets its
own address, and nothing is inserted. -/
def xlatePassThrough (f : InFlight) (ctx : Ctx) (s : State) : State :=
  let done := s.conclude f (.ok f.req.iova 0xFFF Perm.rw)
  match f.req.kind with
  | .write data size => if msiMatch ctx f.req.iova then msiStart f ctx f.req.iova data size s else done
  | .read => done
  | .exec => done
  | .ats => done

/-! ## The steps -/

/-- An IOTLB miss (R256), and the start of the walk (R258 to R261). -/
def xlateMiss (f : InFlight) (ctx : Ctx) (s : State) : Host.Outcome State Fault Refusal :=
  let s1 := s.event f .tlbMiss
  if ctx.stage1On then xlateStage1 f ctx s1
  else if ctx.stage2On then xlateAfterStage1 f ctx f.req.iova (lowMask 64) Perm.rw s1
  else .next (xlatePassThrough f ctx s1)

/-- The ATS check (R254), then the IOTLB lookup, which pins the current generation (R255). A hit gives the request
its result, which it returns in a later step, however its entry has been invalidated by then (20_memory.md R93). -/
def xlateLookupStep (f : InFlight) (ctx : Ctx) (s : State) : Host.Outcome State Fault Refusal :=
  if f.req.kind.isAts && (!tcEnAts ctx.tc || !s.params.cap.ats) then
    .next (s.conclude f (.fault .transactionTypeDisallowed))
  else
    let f1 := { f with tlbGen := some s.iotlb.current.number }
    match s.tlbEntry ctx.gscid ctx.pscid (f.req.iova.extractLsb' 12 52) with
    | some e =>
      if e.valid && e.perm.covers f.req.kind then .next (s.conclude f1 (.ok (hitAddr e f.req.iova) 0xFFF e.perm))
      else xlateMiss f1 ctx s
    | none => xlateMiss f1 ctx s

/-- One stage-1 page-table entry, at the supervisor-physical address `pa` (R273 to R283). -/
def xlateSWalkStep (f : InFlight) (ctx : Ctx) (w : WalkState) (pa : Word) (s : State) : Host.Outcome State Fault Refusal :=
  let r := s.readWord pa w.geom.pteBytes
  let s1 := (s.event f .sWalk).logAccess .read pa w.geom.pteBytes r.isSome
  match r with
  | none => .next (xlateFail f ctx (accessFault f.req.kind) 0 s1)
  | some pte =>
    match walkEntry f.req.kind (tcSade ctx.tc) w pte with
    | .bad => .next (xlateFail f ctx (pageFault .s f.req.kind) 0 s1)
    | .pointer base => xlateStage1Entry f ctx (w.descend base) s1
    | .leaf out lm lp => xlateAfterStage1 f ctx out (w.mask &&& lm) (w.perm.inter lp) s1

/-- One stage-2 page-table entry of an implicit translation (R276): checked as a READ, reported in the direction of
the request, with the address of the stage-1 entry. -/
def xlateSImplicitStep (f : InFlight) (ctx : Ctx) (w g : WalkState) (s : State) : State :=
  let r := s.readWord g.entryAddr g.geom.pteBytes
  let s1 := (s.event f .gWalk).logAccess .read g.entryAddr g.geom.pteBytes r.isSome
  match r with
  | none => xlateFail f ctx (accessFault f.req.kind) 0 s1
  | some pte =>
    match walkEntry .read (tcGade ctx.tc) g pte with
    | .bad => xlateFail f ctx (pageFault .g f.req.kind) g.addr s1
    | .pointer base => s1.goOn f (.translating ctx (.sImplicit w (g.descend base)))
    | .leaf out _ _ => s1.goOn f (.translating ctx (.sWalk w out))

/-- One stage-2 page-table entry of the data path (R261, R273 to R283). -/
def xlateGWalkStep (f : InFlight) (ctx : Ctx) (w : WalkState) (s : State) : State :=
  let r := s.readWord w.entryAddr w.geom.pteBytes
  let s1 := (s.event f .gWalk).logAccess .read w.entryAddr w.geom.pteBytes r.isSome
  match r with
  | none => xlateFail f ctx (accessFault f.req.kind) 0 s1
  | some pte =>
    match walkEntry f.req.kind (tcGade ctx.tc) w pte with
    | .bad => xlateFail f ctx (pageFault .g f.req.kind) w.addr s1
    | .pointer base => s1.goOn f (.translating ctx (.gWalk (w.descend base)))
    | .leaf out lm lp => xlateFinish f ctx w.addr out (w.mask &&& lm) (w.perm.inter lp) s1

/-- Capacity replacement of the IOTLB (R257, 10_state.md R46): without a capacity nothing is inserted; else the
comparison, the swap to a new empty generation and the pin of it are one step (log entry 2). -/
def xlateMakeRoomStep (f : InFlight) (ctx : Ctx) (addr m : Word) (p : Perm) (s : State) : State :=
  if s.params.iotlbCapacity = 0 then s.conclude f (.ok addr m p)
  else if s.params.iotlbCapacity ≤ s.iotlb.current.entries.length then
    let c := s.iotlb.replace
    ({ s with iotlb := c }.goOn { f with tlbGen := some c.current.number } (.translating ctx (.tlbInsert addr m p))).releaseGenerations
  else s.goOn f (.translating ctx (.tlbInsert addr m p))

/-- The IOTLB entry of a translation (R257). -/
def tlbEntryOf (ctx : Ctx) (iova addr : Word) (p : Perm) : TlbEntry :=
  { gscid := ctx.gscid, pscid := ctx.pscid, vpn := iova.extractLsb' 12 52, ppn := addr.extractLsb' 12 52, perm := p, valid := true }

/-- The IOTLB insertion (R257, R263): into the generation the request pins, if that is still current; else it is
lost. Either way the request has its result (R262). Other agents may act between the capacity replacement, the
insertion and the return of the result (log entry 2). -/
def xlateInsertStep (f : InFlight) (ctx : Ctx) (addr m : Word) (p : Perm) (s : State) : State :=
  let s1 := if f.tlbGen = some s.iotlb.current.number then s.insertTlb (tlbEntryOf ctx f.req.iova addr p) else s
  s1.conclude f (.ok addr m p)

/-- The report of a failed translation, whose cause is the result (R264). -/
def xlateReportStep (f : InFlight) (ctx : Ctx) (cause : Cause) (gpa2 : Word) (s : State) : State :=
  (s.reportTranslation f.req ctx cause gpa2).conclude f (.fault cause)

/-- One step of a request with a resolved context. -/
def xlateStep (f : InFlight) (ctx : Ctx) (p : XlatePhase) (s : State) : Host.Outcome State Fault Refusal :=
  match p with
  | .lookup => xlateLookupStep f ctx s
  | .sWalk w pa => xlateSWalkStep f ctx w pa s
  | .sImplicit w g => .next (xlateSImplicitStep f ctx w g s)
  | .gWalk w => .next (xlateGWalkStep f ctx w s)
  | .msiPte gpa ifn data size => .next (msiPteStep f ctx gpa ifn data size s)
  | .msiForward target data size => .next (msiForwardStep f ctx target data size s)
  | .mrifPendingRead pa id m1 => .next (mrifPendingReadStep f ctx pa id m1 s)
  | .mrifPendingWrite pa id m1 pending => .next (mrifPendingWriteStep f ctx pa id m1 pending s)
  | .mrifEnable pa id m1 => .next (mrifEnableStep f ctx pa id m1 s)
  | .mrifNotice m1 => .next (mrifNoticeStep f ctx m1 s)
  | .tlbRoom addr m perm => .next (xlateMakeRoomStep f ctx addr m perm s)
  | .tlbInsert addr m perm => .next (xlateInsertStep f ctx addr m perm s)
  | .report cause gpa2 => .next (xlateReportStep f ctx cause gpa2 s)

end Sys2Proof.Machine
end

