-- ==== Sys2Proof/Machine/Requests.lean ====
section
/-! DEFINITION. Requests: how one arrives at the interface, how it takes a step, and how it reads part of a
structure early (41_translation.md R250, 00_scope.md R10, R11, 20_memory.md R87). -/

namespace Sys2Proof.Machine

/-- A device presents a request (41_translation.md R250). An identifier wider than its field is rejected at the
interface (00_scope.md R10, R11; log entry 8). -/
def arrive (devid pid : Nat) (iova : Word) (kind : ReqKind) (s : State) : State :=
  if 2 ^ 24 ≤ devid then s.emit (.rejected .devidTooWide)
  else if 2 ^ 20 ≤ pid then s.emit (.rejected .pidTooWide)
  else
    let f : InFlight :=
      { id := s.nextId, req := { devid := BitVec.ofNat 24 devid, pid := BitVec.ofNat 20 pid, iova, kind },
        ctxGen := none, tlbGen := none, progress := .resolving .lookup, latches := [] }
    { s with inflight := s.inflight ++ [f], nextId := s.nextId + 1 }

/-- One step of a request in flight; the step of one that has its result returns it (41_translation.md R251). -/
def requestStep (f : InFlight) (s : State) : Host.Outcome State Fault Refusal :=
  match f.progress with
  | .resolving p => .next (ctxStep f p s)
  | .translating ctx p => xlateStep f ctx p s
  | .ending r => .next (s.finish f r)

/-- The request numbered `id` takes one step; without such a request nothing happens. -/
def advance (id : Nat) (s : State) : Host.Outcome State Fault Refusal :=
  match s.lookupInflight id with
  | some f => requestStep f s
  | none => .next s

/-- The multi-dword structure a request reads next: its address and its number of dwords (20_memory.md R81). -/
def pendingStructure (p : Params) (f : InFlight) : Option (Word × Nat) :=
  match f.progress with
  | .resolving (.ddLeaf page) => some (dcAddr p f.req.devid page, dcDwords p)
  | .resolving (.pdLeaf _ page) => some (pcAddr f.req.pid page, 2)
  | .translating ctx (.msiPte _ ifn _ _) => some (msiPteAddr ctx ifn, 2)
  | _ => none

/-- The latches after dword `k` of the `n`-dword structure at `a` has been read, once (20_memory.md R87). -/
def latchDword (s : State) (latches : List Latch) (a : Word) (n k : Nat) : List Latch :=
  let d := a + BitVec.ofNat 64 (8 * k)
  if k < n ∧ latches.all (fun l => l.addr != d) then { addr := d, value := s.readWord d 8 } :: latches else latches

/-- The request numbered `id` reads dword `k` of the structure it reads next. -/
def latchRequest (id k : Nat) (s : State) : State :=
  match s.lookupInflight id with
  | none => s
  | some f =>
    match pendingStructure s.params f with
    | none => s
    | some (a, n) => s.setInflight { f with latches := latchDword s f.latches a n k }

end Sys2Proof.Machine
end

