-- ==== Sys2Proof/Machine/Software.lean ====
section
/-! DEFINITION. What software, the register file and other agents do at the boundary (10_state.md R33, R34, R60 to
R65, 43_commands.md R371, R373, R391, 60_exceptions.md R435, R437). The register file rejects malformed
configuration when it is written (70_reset_and_hazards.md R477). -/

namespace Sys2Proof.Machine

/-- A power of two. -/
def isPowerOfTwo (n : Nat) : Bool := n = 2 ^ n.log2

/-- The bytes of one entry of a queue (20_memory.md R81). -/
def QueueId.entryBytes : QueueId → Nat
  | .cq => 16
  | .fq => 32
  | .pq => 16

/-- A queue base and size the register file accepts (43_commands.md R391): the size a power of two, the base a
multiple of the entry size (log entry 9). -/
def queueConfigOk (q : QueueId) (base : Word) (size : Nat) : Bool :=
  isPowerOfTwo size && base.toNat % q.entryBytes = 0

/-- A record queue with a new base and size; its indices are taken modulo the size (43_commands.md R368; log entry 23). -/
def RecQueue.config (q : RecQueue) (base : Word) (size : Nat) : RecQueue :=
  { q with base, size, head := q.head % size, tail := q.tail % size }

/-- The command queue with a new base and size; its indices are taken modulo the size (43_commands.md R368; log entry 23). -/
def CmdQueue.config (q : CmdQueue) (base : Word) (size : Nat) : CmdQueue :=
  { q with base, size, head := q.head % size, tail := q.tail % size }

/-- A record queue with status and pending bits cleared where asked (60_exceptions.md R435). -/
def RecQueue.clear (q : RecQueue) (overflow memFault ip : Bool) : RecQueue :=
  { q with overflow := q.overflow && !overflow, memFault := q.memFault && !memFault, ip := q.ip && !ip }

/-- Queue base and size are written (43_commands.md R391). DESIGN CHOICE, unsafe (log entry 31): the spec orders only that
software programs a queue and then enables it (70_reset_and_hazards.md R475); here the write is taken, and at once, in
every state of the queue, ON, ENABLING or active and in the middle of a drain too. -/
def configQueue (q : QueueId) (base : Word) (size : Nat) (s : State) : State :=
  if queueConfigOk q base size then
    match q with
    | .cq => { s with cq := s.cq.config base size, cmdLatches := [] }
    | .fq => { s with fq := s.fq.config base size }
    | .pq => { s with pq := s.pq.config base size }
  else s.emit (.rejected .malformedQueue)

/-- A queue is asked to be enabled or disabled: the action waits for the background thread (70_reset_and_hazards.md
R476). DESIGN CHOICE, unsafe (log entry 29): a request made while an earlier one for the same queue still waits takes
its place, for each of the three queues, so that a disable followed by an enable leaves a queue that is on as it is. -/
def controlQueue (q : QueueId) (enable : Bool) (s : State) : State :=
  match q with
  | .cq => { s with pending := { s.pending with cqControl := some enable } }
  | .fq => { s with pending := { s.pending with fqControl := some enable } }
  | .pq => { s with pending := { s.pending with pqControl := some enable } }

/-- A head index is written, modulo the queue's size (43_commands.md R368). DESIGN CHOICE, unsafe (log entry 23): the
spec gives software the move of `cq_head` in the recovery of a stopped queue (R371, 70_reset_and_hazards.md R485) and
does not say whether it is taken in other states; here it is, in every state of the queue. -/
def writeHead (q : QueueId) (v : Nat) (s : State) : State :=
  match q with
  | .cq => { s with cq := { s.cq with head := v % s.cq.size }, cmdLatches := [] }
  | .fq => { s with fq := { s.fq with head := v % s.fq.size } }
  | .pq => { s with pq := { s.pq with head := v % s.pq.size } }

/-- The `ddtp` register is written: the change waits for the background thread (10_state.md R34). DESIGN CHOICE,
unsafe (log entry 29): a write made while an earlier one still waits (the register is busy) takes its place, and the
earlier value never takes effect. -/
def writeDdtp (v : Word) (s : State) : State :=
  match Ddtp.ofWord v with
  | some d => { s with pending := { s.pending with ddtp := some d } }
  | none => s.emit (.rejected .illegalDdtp)

/-- One action at the boundary. -/
def softwareStep (a : SwAction) (s : State) : State :=
  match a with
  | .store addr size value => { s with mem := s.mem.store addr (leBytes size.bytes value) }
  | .setFailing ranges => { s with failing := ranges }
  | .writeDdtp v => writeDdtp v s
  | .configQueue q base size => configQueue q base size s
  | .controlQueue q enable => controlQueue q enable s
  | .writeCqTail v => { s with cq := { s.cq with tail := v % s.cq.size }, pending := { s.pending with cqTail := true } }
  | .writeHead q v => writeHead q v s
  | .clearCq ill mf fence =>
    { s with cq := { s.cq with cmdIll := s.cq.cmdIll && !ill, cmdMf := s.cq.cmdMf && !mf, fenceWIp := s.cq.fenceWIp && !fence } }
  | .clearFq overflow memFault ip => { s with fq := s.fq.clear overflow memFault ip }
  | .clearPq overflow memFault ip => { s with pq := s.pq.clear overflow memFault ip }
  | .debugRequest => { s with pending := { s.pending with debug := true } }

/-- The instance is torn down and created again (70_reset_and_hazards.md R470, R474, 10_state.md R71): every piece of
block state takes its reset value; memory, the schedule and what was sent out are not the block's. DESIGN CHOICE,
unsafe (log entry 30): requests may be in flight then; they are gone and return no result. The join of the background
thread cuts a drain between any two of its moves, and the actions still pending are dropped. -/
def realize (s : State) : State :=
  { State.ofParams s.params with
    mem := s.mem, failing := s.failing, nextId := s.nextId, schedule := s.schedule, trace := s.trace }

end Sys2Proof.Machine
end

