-- ==== Sys2Proof/Machine/Ats.lean ====
section
/-! DEFINITION. The meanings of the ATS commands (43_commands.md R385 to R387). -/

namespace Sys2Proof.Machine

/-- An ATS event is sent to the listeners of the target device (R385, R386): illegal without ATS in `CAP`. -/
def sendAts (kind : AtsKind) (pid : BitVec 20) (pv dsv : Bool) (rid : BitVec 16) (dseg : BitVec 8) (payload : Word)
    (s : State) : Host.Outcome State Fault Refusal :=
  if s.params.cap.ats then .next (s.emit (.atsEvent kind (atsDevid dsv dseg rid) (atsPid pv pid) payload)).retire
  else .next s.stopIllegal

/-- ATS.INVAL (R385). -/
def execAtsInval (pid : BitVec 20) (pv dsv : Bool) (rid : BitVec 16) (dseg : BitVec 8) (payload : Word) (s : State) :
    Host.Outcome State Fault Refusal :=
  sendAts .inval pid pv dsv rid dseg payload s

/-- ATS.PRGR (R386). -/
def execAtsPrgr (pid : BitVec 20) (pv dsv : Bool) (rid : BitVec 16) (dseg : BitVec 8) (payload : Word) (s : State) :
    Host.Outcome State Fault Refusal :=
  sendAts .prgr pid pv dsv rid dseg payload s

end Sys2Proof.Machine
end

