-- ==== Sys2Proof/Machine/Iodir.lean ====
section
/-! DEFINITION. The meanings of the IODIR commands (43_commands.md R380 to R383). -/

namespace Sys2Proof.Machine

/-- IODIR.INVAL_DDT (R380): every context-cache entry, or every entry of device `did`;
`pid` is ignored. -/
def execIodirInvalDdt (_pid : BitVec 20) (dv : Bool) (did : BitVec 24) (s : State) : Host.Outcome State Fault Refusal :=
  .next (s.invalCtx fun e => !dv || e.ctx.devid = did).retire

/-- IODIR.INVAL_PDT (R381): illegal without `DV`; else the entry of `(did, pid)`. -/
def execIodirInvalPdt (pid : BitVec 20) (dv : Bool) (did : BitVec 24) (s : State) : Host.Outcome State Fault Refusal :=
  if dv then .next (s.invalCtx (CtxEntry.hasKey did pid)).retire else .next s.stopIllegal

end Sys2Proof.Machine
end

