-- ==== Sys2Proof/Machine/Iofence.lean ====
section
/-! DEFINITION. The meaning of IOFENCE.C (43_commands.md R375 to R378). -/

namespace Sys2Proof.Machine

/-- The interrupt of a completed fence (R375): with `WSI`, `fence_w_ip` is set and CQ_INT signalled. -/
def fenceInterrupt (wsi : Bool) (s : State) : State :=
  if wsi then { s with cq := { s.cq with fenceWIp := true } }.signal .cq else s

/-- IOFENCE.C (R375): the completion write if `AV`, then the interrupt if `WSI`; a failed write is a memory fault
and leaves the head on the fence.
`pr` and `pw` have no effect (R377). -/
def execIofenceC (av wsi _pr _pw : Bool) (data : BitVec 32) (addr : BitVec 62) (s : State) :
    Host.Outcome State Fault Refusal :=
  if av then
    match s.memWrite (iofenceAddress addr) (leBytes 4 (data.setWidth 64)) with
    | (s1, false) => .next s1.stopMemFault
    | (s1, true) => .next (fenceInterrupt wsi s1).retire
  else .next (fenceInterrupt wsi s).retire

end Sys2Proof.Machine
end

