-- ==== Sys2Proof/Machine/Iotinval.lean ====
section
/-! DEFINITION. The meanings of the IOTINVAL commands (43_commands.md R361 to R364). -/

namespace Sys2Proof.Machine

/-- IOTINVAL.VMA (R361): the valid bits of the scope's IOTLB entries are cleared; the head advances. -/
def execIotinvalVma (av : Bool) (pscid : BitVec 20) (pscv gv : Bool) (gscid : BitVec 16) (addr : BitVec 52) (s : State) :
    Host.Outcome State Fault Refusal :=
  .next (s.invalTlb (vmaScope av pscid pscv gv gscid addr)).retire

/-- IOTINVAL.GVMA (R362): illegal with `PSCV`; else the scope is one GSCID or everything.
`av`, `pscid` and `addr` are ignored. -/
def execIotinvalGvma (_av : Bool) (_pscid : BitVec 20) (pscv gv : Bool) (gscid : BitVec 16) (_addr : BitVec 52) (s : State) :
    Host.Outcome State Fault Refusal :=
  if pscv then .next s.stopIllegal else .next (s.invalTlb (gvmaScope gv gscid)).retire

end Sys2Proof.Machine
end

