-- ==== Sys2Proof/Machine/Thread.lean ====
section
/-! DEFINITION. The background thread (43_commands.md R360 to R374, R390, 60_exceptions.md R437): the command loop
and the pending actions. -/

namespace Sys2Proof.Machine

/-! ## The command loop -/

/-- The address of the command at the head of the queue (30_encoding.md R160, 43_commands.md R366). -/
def State.commandAddr (s : State) : Word := s.cq.base + BitVec.ofNat 64 (s.cq.head * 16)

/-- `ReadCommand` (43_commands.md R366): the two dwords at the head, or `none` if the read fails. -/
def State.fetchCommand (s : State) : Option (List Word) := s.readDwords s.cmdLatches s.commandAddr 2

/-- The state after the read of a command: the access is made, what had been read early is used up. -/
def State.afterFetch (s : State) : State :=
  { s with cmdLatches := [] }.logAccess .read s.commandAddr 16 s.fetchCommand.isSome

/-- The command loop is left (43_commands.md R360). -/
def State.leaveLoop (s : State) : State := { s with thread := .idle, cmdLatches := [] }

/-- One turn of the command loop (R360): leave it, or read one command, decode it and run it. -/
def commandStep (s : State) : Host.Outcome State Fault Refusal :=
  if s.cq.runnable then
    match s.fetchCommand with
    | none => .next s.afterFetch.stopMemFault
    | some ds =>
      match decode (ds.getD 0 0) (ds.getD 1 0) with
      | .instr i => exec i s.afterFetch
      | .reject _ => .next s.afterFetch.stopIllegal
  else .next s.leaveLoop

/-- The background thread reads dword `k` of the command at the head before the rest (20_memory.md R87). -/
def latchCommand (k : Nat) (s : State) : State :=
  if s.thread = .commands ∧ s.cq.runnable then
    { s with cmdLatches := latchDword s s.cmdLatches s.commandAddr 2 k }
  else s

/-! ## The pending actions -/

/-- The command-queue-control action (R390): enabling goes DISABLED → ENABLING → ON in two steps; enabling a queue
that is on, or disabling one that is off, changes nothing (log entries 7 and 24). -/
def cqControlStep (enable : Bool) (s : State) : State :=
  let done := { s.pending with cqControl := none }
  if enable then
    match s.cq.state with
    | .disabled =>
      { s with cq := { s.cq with state := .enabling, head := 0, tail := 0, cmdIll := false, cmdMf := false, fenceWIp := false } }
    | .enabling => { s with cq := { s.cq with state := .on }, pending := done }
    | .on => { s with pending := done }
  else { s with cq := { s.cq with state := .disabled }, pending := done }

/-- Fault-queue or page-request-queue control (60_exceptions.md R437): enabling a queue that is active changes
nothing (log entry 7). -/
def RecQueue.control (q : RecQueue) (enable : Bool) : RecQueue :=
  if enable then
    if q.active then q else { q with head := 0, tail := 0, overflow := false, memFault := false, active := true }
  else { q with active := false }

/-- The thread takes the pending action of the highest priority (R373); without one it stays blocked. -/
def actionStep (s : State) : Host.Outcome State Fault Refusal :=
  match s.pending.ddtp with
  | some d => .next { s with ddtp := d, pending := { s.pending with ddtp := none } }
  | none =>
    match s.pending.cqControl with
    | some enable => .next (cqControlStep enable s)
    | none =>
      if s.pending.cqTail then .next { s with thread := .commands, pending := { s.pending with cqTail := false } }
      else
        match s.pending.fqControl with
        | some enable => .next { s with fq := s.fq.control enable, pending := { s.pending with fqControl := none } }
        | none =>
          match s.pending.pqControl with
          | some enable => .next { s with pq := s.pq.control enable, pending := { s.pending with pqControl := none } }
          | none => if s.pending.debug then .refused .debugTranslation else .next s

/-- The background thread does its next piece of work. -/
def threadStep (s : State) : Host.Outcome State Fault Refusal :=
  match s.thread with
  | .commands => commandStep s
  | .idle => actionStep s

/-- An action is pending (R373). -/
def Pending.any (p : Pending) : Bool :=
  p.ddtp.isSome || p.cqControl.isSome || p.cqTail || p.fqControl.isSome || p.pqControl.isSome || p.debug

/-- The background thread has work: it is inside the command loop, or an action is pending. -/
def State.threadBusy (s : State) : Bool := s.thread = .commands || s.pending.any

end Sys2Proof.Machine
end

