-- ==== Sys2Proof/Machine/Moves.lean ====
section
/-! DEFINITION. The moves of the agents (60_exceptions.md R455), the default move, and how the host places one
command for the next step to fetch. -/

namespace Sys2Proof.Machine

/-- One move of one agent. -/
def perform (m : Move) (s : State) : Host.Outcome State Fault Refusal :=
  match m with
  | .thread => threadStep s
  | .latchCommand k => .next (latchCommand k s)
  | .request devid pid iova kind => .next (arrive devid pid iova kind s)
  | .advance id => advance id s
  | .latch id k => .next (latchRequest id k s)
  | .software a => .next (softwareStep a s)
  | .realize => .next (realize s)

/-- The move made when the schedule is empty (log entry 2): the background thread if it has work, else the oldest
request in flight, else the blocked thread, which does nothing. -/
def State.defaultMove (s : State) : Move :=
  if s.threadBusy then .thread
  else
    match s.inflight with
    | f :: _ => .advance f.id
    | [] => .thread

/-- The next move is taken off the schedule and performed. -/
def stepMove (s : State) : Host.Outcome State Fault Refusal :=
  match s.schedule with
  | m :: rest => perform m { s with schedule := rest }
  | [] => perform s.defaultMove s

/-- The failing ranges that do not stop a read of the `n` bytes from `a` up. -/
def rangesClearOf (ranges : List FailRange) (a : Word) (n : Nat) : List FailRange :=
  ranges.filter fun r => !accessFails [r] .read a n

/-- The state with the command of `tableWordBytes nbits w` alone in the ring of the enabled command queue, at the
head, the background thread inside the command loop and about to move (log entry 14). -/
def State.placeCommand (s : State) (nbits w : Nat) : State :=
  { s with
    mem := s.mem.store s.cq.base (tableWordBytes nbits w)
    failing := rangesClearOf s.failing s.cq.base 16
    cq := { s.cq with size := 2, head := 0, tail := 1, state := .on, cmdIll := false, cmdMf := false }
    thread := .commands
    cmdLatches := []
    schedule := .thread :: s.schedule }

end Sys2Proof.Machine
end

