-- ==== Sys2Proof/Safety.lean ====
section
/-! DEFINITION. The terms claims use: what a sound state of the block is, runs of one request alone, and the stage
walk as one procedure. -/

namespace Sys2Proof.Machine

/-! ## Sound states -/

/-- Each cache key has at most one entry in the current generation (10_state.md R39, R43). -/
abbrev State.CachesKeyed (s : State) : Prop :=
  s.ctxCache.current.entries.Pairwise (fun a b => ¬ (a.ctx.devid = b.ctx.devid ∧ a.ctx.pid = b.ctx.pid)) ∧
  s.iotlb.current.entries.Pairwise (fun a b => ¬ (a.gscid = b.gscid ∧ a.pscid = b.pscid ∧ a.vpn = b.vpn))

/-- The stage-2 mode of a context is a supported one (40_context.md R215 item 3). -/
def Ctx.gModeOk (p : Params) (c : Ctx) : Bool := gModeSupported p.cap p.gxl (modeField c.gatp)

/-- Both modes of a resolved context are supported ones: what 41_translation.md R271 relies on. -/
def Ctx.modesOk (p : Params) (c : Ctx) : Bool :=
  c.gModeOk p && sModeSupported p.cap (tcSxl c.tc) (modeField c.satp)

/-- A request that is resolving its context stands at a level its trees have, with a context whose checked modes are
supported. -/
def CtxPhase.ok (p : Params) : CtxPhase → Bool
  | .lookup => true
  | .makeRoom => true
  | .walk => true
  | .ddEntry lvl _ => decide (lvl ≤ 2)
  | .ddLeaf _ => true
  | .pdEntry ctx lvl _ => ctx.gModeOk p && decide (lvl ≤ 2)
  | .pdLeaf ctx _ => ctx.gModeOk p
  | .insert ctx => ctx.modesOk p
  | .report cause _ => !cause.neverRaised

/-- A stage walk stands at one of the at most five levels (30_encoding.md R140), and the permission it has gathered
covers the request. -/
def WalkState.ok (kind : ReqKind) (w : WalkState) : Bool := decide (w.level < 5) && w.perm.covers kind

/-- A request with a resolved context stands at a level its tables have, and what it has gathered covers it. -/
def XlatePhase.ok (kind : ReqKind) : XlatePhase → Bool
  | .lookup => true
  | .sWalk w _ => w.ok kind
  | .sImplicit w g => w.ok kind && decide (g.level < 5)
  | .gWalk w => w.ok kind
  | .msiPte _ _ _ _ => true
  | .msiForward _ _ _ => true
  | .mrifPendingRead _ _ _ => true
  | .mrifPendingWrite _ _ _ _ => true
  | .mrifEnable _ _ _ => true
  | .mrifNotice _ => true
  | .tlbRoom _ _ perm => perm.covers kind
  | .tlbInsert _ _ perm => perm.covers kind
  | .report cause _ => !cause.neverRaised

/-- A result a request of kind `kind` may return: an address comes with the permission asked for (41_translation.md
R252), and the cause of a failure is one that is raised (60_exceptions.md R411). -/
def Result.okFor (kind : ReqKind) : Result → Bool
  | .ok _ _ perm => perm.covers kind
  | .msiDone => true
  | .fault cause => !cause.neverRaised

/-- A request in flight is sound. -/
def InFlight.ok (p : Params) (f : InFlight) : Bool :=
  match f.progress with
  | .resolving ph => ph.ok p
  | .translating ctx ph => ctx.modesOk p && ph.ok f.req.kind
  | .ending r => r.okFor f.req.kind

/-- Every context in the current generation and every request in flight is sound. -/
abbrev State.RequestsOk (s : State) : Prop :=
  (∀ e ∈ s.ctxCache.current.entries, e.ctx.modesOk s.params = true) ∧ (∀ f ∈ s.inflight, f.ok s.params = true)

/-- The queue sizes are powers of two and the indices lie below them (10_state.md R60, R63, R64). -/
abbrev State.RingsOk (s : State) : Prop :=
  (isPowerOfTwo s.cq.size = true ∧ s.cq.head < s.cq.size ∧ s.cq.tail < s.cq.size) ∧
  (isPowerOfTwo s.fq.size = true ∧ s.fq.head < s.fq.size ∧ s.fq.tail < s.fq.size) ∧
  (isPowerOfTwo s.pq.size = true ∧ s.pq.head < s.pq.size ∧ s.pq.tail < s.pq.size)

/-- The requests in flight have different numbers, all below the next one. -/
abbrev State.IdsOk (s : State) : Prop :=
  s.inflight.Pairwise (fun f g => f.id ≠ g.id) ∧ ∀ f ∈ s.inflight, f.id < s.nextId

/-- An output the block may send: no cause that is never raised (60_exceptions.md R411), no TRQ event (R440), no
PM_INT (R445, the monitor's). -/
def Output.legal : Output → Bool
  | .event e _ _ _ _ => e != .trq
  | .signal i => i != .pm
  | .atsEvent _ _ _ _ => true
  | .result _ (.ok _ _ _) => true
  | .result _ .msiDone => true
  | .result _ (.fault cause) => !cause.neverRaised
  | .rejected _ => true
  | .access _ _ _ _ => true

/-- Everything sent so far is legal. -/
abbrev State.TraceOk (s : State) : Prop := ∀ o ∈ s.trace, o.legal = true

/-- A sound state. -/
abbrev State.Inv (s : State) : Prop :=
  s.mem.WF ∧ s.CachesKeyed ∧ s.RequestsOk ∧ s.RingsOk ∧ s.IdsOk ∧ s.TraceOk

/-! ## Requests -/

/-- The request numbered `f.id` is in flight as `f`, and stands at `p`. -/
abbrev State.At (s : State) (f : InFlight) (p : Progress) : Prop := s.lookupInflight f.id = some f ∧ f.progress = p

/-- Where the request numbered `id` stands. -/
def State.progressOf (s : State) (id : Nat) : Option Progress := (s.lookupInflight id).map InFlight.progress

/-- `n` steps of one request, nobody else moving. -/
def runAlone (id : Nat) : Nat → State → Host.Outcome State Fault Refusal
  | 0, s => .next s
  | n + 1, s =>
    match advance id s with
    | .next t => runAlone id n t
    | .fault r => .fault r
    | .refused r => .refused r

/-- A dword of a structure as its reader takes it: the value it has read early (20_memory.md R87; log entry 5), else
memory's now; `none` is a failed read. -/
def earlyOrNow (s : State) (latches : List Latch) (a : Word) : Option Word :=
  match latches.find? fun l => l.addr == a with
  | some l => l.value
  | none => if accessFails s.failing .read a 8 then none else some (s.mem.dword a)

/-! ## The two-stage translation as one procedure, over one memory (41_translation.md R259 to R285) -/

/-- How a walk fails: the cause and the value recorded as `gpa2` (R264, R285). -/
abbrev WalkError := Cause × Word

/-- `WalkStage` of R270 from the level `w` stands at, every entry read with `read`; `bad` is the page fault of the
stage (R284, R285); `fuel` is one more than the level. -/
def walkStage (read : Word → Except WalkError Word) (kind : ReqKind) (ade : Bool) (bad : WalkError) :
    Nat → WalkState → Except WalkError (Word × Word × Perm)
  | 0, _ => .error bad
  | fuel + 1, w =>
    match read w.entryAddr with
    | .error e => .error e
    | .ok pte =>
      match walkEntry kind ade w pte with
      | .bad => .error bad
      | .pointer base => walkStage read kind ade bad fuel (w.descend base)
      | .leaf out m p => .ok (out, m, p)

/-- A page-table entry of `n` bytes read at a supervisor-physical address (R273, R274). -/
def readPte (s : State) (kind : ReqKind) (n : Nat) (pa : Word) : Except WalkError Word :=
  match s.readWord pa n with
  | none => .error (accessFault kind, 0)
  | some pte => .ok pte

/-- `WalkStage(G, a)` for a request of kind `kind`, its entries checked as those of a `check` request (R270, R276). -/
def stage2Walk (s : State) (ctx : Ctx) (kind check : ReqKind) (a : Word) : Except WalkError (Word × Word × Perm) :=
  match gGeometry s.params.cap s.params.gxl (modeField ctx.gatp) with
  | none => .error (pageFault .g kind, a)
  | some geom =>
    if rangeOk .g geom.width a then
      walkStage (readPte s kind geom.pteBytes) check (tcGade ctx.tc) (pageFault .g kind, a) geom.levels
        (startWalk .g geom (ppnField ctx.gatp) a (lowMask 64) Perm.rw)
    else .error (pageFault .g kind, a)

/-- The read of a stage-1 page-table entry of `n` bytes at `pa`: with stage 2 on, `pa` is a guest-physical address
and is translated first, checked as a READ (R273, R276). -/
def readStage1Pte (s : State) (ctx : Ctx) (kind : ReqKind) (n : Nat) (pa : Word) : Except WalkError Word :=
  if ctx.stage2On then
    match stage2Walk s ctx kind .read pa with
    | .error e => .error e
    | .ok (spa, _, _) => readPte s kind n spa
  else readPte s kind n pa

/-- `WalkStage(S, a)` (R270, R273). -/
def stage1Walk (s : State) (ctx : Ctx) (kind : ReqKind) (a : Word) : Except WalkError (Word × Word × Perm) :=
  match sGeometry s.params.cap (tcSxl ctx.tc) (modeField ctx.satp) with
  | none => .error (pageFault .s kind, 0)
  | some geom =>
    if rangeOk .s geom.width a then
      walkStage (readStage1Pte s ctx kind geom.pteBytes) kind (tcSade ctx.tc) (pageFault .s kind, 0) geom.levels
        (startWalk .s geom (ppnField ctx.satp) a (lowMask 64) Perm.rw)
    else .error (pageFault .s kind, 0)

/-- Where the data path of a request ends (R258 to R264). -/
inductive PathEnd where
  /-- Both stages passed: the guest-physical and the supervisor-physical address, the mask and the permission. -/
  | translated (gpa spa mask : Word) (perm : Perm)
  /-- A write that the MSI filter takes (R260). -/
  | msi (gpa : Word)
  /-- A failed walk (R264). -/
  | failed (e : WalkError)
deriving DecidableEq, Repr

/-- Stage 2 of the data path (R261, R262), from the guest-physical address with the mask and permission of stage 1. -/
def dataPath2 (s : State) (ctx : Ctx) (kind : ReqKind) (gpa m : Word) (p : Perm) : PathEnd :=
  if kind.isWrite && msiMatch ctx gpa then .msi gpa
  else if ctx.stage2On then
    match stage2Walk s ctx kind kind gpa with
    | .error e => .failed e
    | .ok (spa, m2, p2) => .translated gpa spa (m &&& m2) (p.inter p2)
  else .translated gpa gpa m p

/-- The data path of a request that has missed in the IOTLB, at least one stage enabled (R259 to R262). -/
def dataPath (s : State) (ctx : Ctx) (kind : ReqKind) (iova : Word) : PathEnd :=
  if ctx.stage1On then
    match stage1Walk s ctx kind iova with
    | .error e => .failed e
    | .ok (gpa, m, p) => dataPath2 s ctx kind gpa m p
  else dataPath2 s ctx kind iova (lowMask 64) Perm.rw

/-! ## The mode tables as the spec writes them -/

/-- 30_encoding.md R128: the supported stage-2 modes. -/
def gModeListed (cap : Cap) (gxl : Bool) (mode : BitVec 4) : Prop :=
  mode = 0
  ∨ (gxl = false ∧ ((mode = 8 ∧ cap.sv39x4 = true) ∨ (mode = 9 ∧ cap.sv48x4 = true) ∨ (mode = 10 ∧ cap.sv57x4 = true)))
  ∨ (gxl = true ∧ mode = 8 ∧ cap.sv32x4 = true)

/-- 30_encoding.md R130: the supported stage-1 modes. -/
def sModeListed (cap : Cap) (sxl : Bool) (mode : BitVec 4) : Prop :=
  mode = 0
  ∨ (sxl = false ∧ ((mode = 8 ∧ cap.sv39 = true) ∨ (mode = 9 ∧ cap.sv48 = true) ∨ (mode = 10 ∧ cap.sv57 = true)))
  ∨ (sxl = true ∧ mode = 8 ∧ cap.sv32 = true)

/-- 30_encoding.md R131: the supported process-directory modes. -/
def pdModeListed (cap : Cap) (mode : BitVec 4) : Prop :=
  mode = 0 ∨ (mode = 1 ∧ cap.pd8 = true) ∨ (mode = 2 ∧ cap.pd17 = true) ∨ (mode = 3 ∧ cap.pd20 = true)

/-- 40_context.md R215: a device context with these words is misconfigured. -/
def dcBad (p : Params) (tc gatp satp msiptp : Word) : Prop :=
  (∃ i, 12 ≤ i ∧ i < 64 ∧ i ≠ p.tcAprqBit ∧ tc.getLsbD i = true)
  ∨ tc.getLsbD 10 = true
  ∨ ¬ gModeListed p.cap p.gxl (gatp.extractLsb' 60 4)
  ∨ (tc.getLsbD 5 = false ∧ ¬ sModeListed p.cap (tc.getLsbD 11) (satp.extractLsb' 60 4))
  ∨ (tc.getLsbD 5 = true ∧ ¬ pdModeListed p.cap (satp.extractLsb' 60 4))
  ∨ ¬ (msiptp.extractLsb' 60 4 = 0 ∨ (msiptp.extractLsb' 60 4 = 1 ∧ p.cap.msiFlat = true))
  ∨ ((tc.getLsbD p.tcAprqBit = true ∨ tc.getLsbD 1 = true) ∧ p.cap.ats = false)

/-! ## Commands and records -/

/-- The reserved bits of a command's two dwords (30_encoding.md R161 to R164). -/
def reservedBits : Instr → Word × Word
  | .iotinvalVma _ _ _ _ _ _ => (0xF0000FFC00000800, 0xC0000000000003FF)
  | .iotinvalGvma _ _ _ _ _ _ => (0xF0000FFC00000800, 0xC0000000000003FF)
  | .iofenceC _ _ _ _ _ _ => (0x00000000FFFFC000, 0xC000000000000000)
  | .iodirInvalDdt _ _ _ => (0x000000FD00000C00, 0xFFFFFFFFFFFFFFFF)
  | .iodirInvalPdt _ _ _ => (0x000000FD00000C00, 0xFFFFFFFFFFFFFFFF)
  | .atsInval _ _ _ _ _ _ => (0x000000FC00000C00, 0)
  | .atsPrgr _ _ _ _ _ _ => (0x000000FC00000C00, 0)

/-- The command is one of the two ATS commands. -/
def isAtsCommand (i : Instr) : Bool := decide (opcodeOf i = 0x004#10) || decide (opcodeOf i = 0x084#10)

/-- The command is an IOFENCE.C whose completion write fails (43_commands.md R375). -/
def fenceFails (i : Instr) (failing : List FailRange) : Bool :=
  match i with
  | .iofenceC av _ _ _ _ addr => av && accessFails failing .write (iofenceAddress addr) 4
  | .iotinvalVma _ _ _ _ _ _ => false
  | .iotinvalGvma _ _ _ _ _ _ => false
  | .iodirInvalDdt _ _ _ => false
  | .iodirInvalPdt _ _ _ => false
  | .atsInval _ _ _ _ _ _ => false
  | .atsPrgr _ _ _ _ _ _ => false

/-- The queue and the state after a sequence of enqueues with no dequeue between them (60_exceptions.md R433). -/
def enqueueAll (int : IntReq) : List (List Word) → RecQueue × State → RecQueue × State
  | [], qs => qs
  | rec :: recs, qs => enqueueAll int recs (enqueue qs.1 int rec qs.2)

/-- The free entries of a ring of which one entry always stays empty (60_exceptions.md R433). -/
def RecQueue.free (q : RecQueue) : Nat := (q.head + q.size - q.tail - 1) % q.size

end Sys2Proof.Machine
end

