-- ==== Sys2Proof/Certificates/Slice0/Obligations.lean ====
section
/-! DEFINITION. The statements for the provers. `OBLIGATIONS.json` gives each its tier, its rules and its sentence. -/

open Sys2Proof Sys2Proof.Machine

/-! ## The commands: what each does, that it completes, and that nothing else changes -/

/-- 43_commands.md R361. -/
def Obligations.IotinvalVmaEffect : Prop :=
  ∀ (av : Bool) (pscid : BitVec 20) (pscv gv : Bool) (gscid : BitVec 16) (addr : BitVec 52) (s : State),
    exec (.iotinvalVma av pscid pscv gv gscid addr) s = .next
      { s with
        iotlb := { s.iotlb with current := { s.iotlb.current with
          entries := s.iotlb.current.entries.map fun e => { e with valid := e.valid &&
            !(!gv || (decide (e.gscid = gscid) && (!pscv || (decide (e.pscid = pscid) && (!av || decide (e.vpn = addr)))))) } } }
        cq := { s.cq with head := (s.cq.head + 1) % s.cq.size } }

/-- 43_commands.md R362. -/
def Obligations.IotinvalGvmaEffect : Prop :=
  ∀ (av : Bool) (pscid : BitVec 20) (pscv gv : Bool) (gscid : BitVec 16) (addr : BitVec 52) (s : State), ∃ th : ThreadState,
    exec (.iotinvalGvma av pscid pscv gv gscid addr) s = .next
      (if pscv = true then
        { s with cq := { s.cq with cmdIll := true }, thread := th, trace := .signal .cq :: s.trace }
      else
        { s with
          iotlb := { s.iotlb with current := { s.iotlb.current with
            entries := s.iotlb.current.entries.map fun e => { e with valid := e.valid && (gv && decide (e.gscid ≠ gscid)) } } }
          cq := { s.cq with head := (s.cq.head + 1) % s.cq.size } })

/-- 43_commands.md R375, R377. (What a failed write leaves in memory is not said here: `FenceStoresOnlyItsBytes`.) -/
def Obligations.IofenceEffect : Prop :=
  ∀ (av wsi pr pw : Bool) (data : BitVec 32) (addr : BitVec 62) (s : State), ∃ (th : ThreadState) (m : Memory),
    exec (.iofenceC av wsi pr pw data addr) s = .next
      (let a : Word := addr ++ 0#2
       let done := { s.cq with head := (s.cq.head + 1) % s.cq.size, fenceWIp := s.cq.fenceWIp || wsi }
       let int := if wsi = true then [Output.signal .cq] else []
       if av = false then { s with cq := done, trace := int ++ s.trace }
       else if accessFails s.failing .write a 4 = true then
        { s with mem := m, cq := { s.cq with cmdMf := true }, thread := th, trace := .signal .cq :: .access .write a 4 false :: s.trace }
       else
        { s with
          mem := s.mem.store a [data.extractLsb' 0 8, data.extractLsb' 8 8, data.extractLsb' 16 8, data.extractLsb' 24 8]
          cq := done
          trace := int ++ .access .write a 4 true :: s.trace })

/-- The frame of IOFENCE.C in memory (43_commands.md R375, 20_memory.md R82): with `AV` it stores the four bytes of
`DATA`, the low byte first, at the address its meaning computes, or nothing where the write fails; without `AV` it
stores nothing. (That a failed write stores nothing is log entry 22.) -/
def Obligations.FenceStoresOnlyItsBytes : Prop :=
  ∀ (av wsi pr pw : Bool) (data : BitVec 32) (addr : BitVec 62) (s t : State), s.mem.WF →
    exec (.iofenceC av wsi pr pw data addr) s = .next t →
      (∀ x : Word, ¬ inBytes (iofenceAddress addr) 4 x → t.mem.at x = s.mem.at x) ∧
      (av = false ∨ accessFails s.failing .write (iofenceAddress addr) 4 = true → t.mem = s.mem) ∧
      (av = true → accessFails s.failing .write (iofenceAddress addr) 4 = false →
        t.mem.word32 (iofenceAddress addr) = data)

/-- 43_commands.md R380, R381. -/
def Obligations.IodirCommandsEffect : Prop :=
  ∀ (pid : BitVec 20) (dv : Bool) (did : BitVec 24) (s : State), ∃ th : ThreadState,
    let after (keep : CtxEntry → Bool) : State :=
      { s with
        ctxCache := { s.ctxCache with current := { s.ctxCache.current with
          entries := s.ctxCache.current.entries.map fun e => { e with valid := e.valid && keep e } } }
        cq := { s.cq with head := (s.cq.head + 1) % s.cq.size } }
    exec (.iodirInvalDdt pid dv did) s = .next (after fun e => dv && decide (e.ctx.devid ≠ did)) ∧
    exec (.iodirInvalPdt pid dv did) s = .next
      (if dv = false then
        { s with cq := { s.cq with cmdIll := true }, thread := th, trace := .signal .cq :: s.trace }
      else after fun e => decide (e.ctx.devid ≠ did) || decide (e.ctx.pid ≠ pid))

/-- 43_commands.md R385, R386, 30_encoding.md R169. -/
def Obligations.AtsCommandsEffect : Prop :=
  ∀ (pid : BitVec 20) (pv dsv : Bool) (rid : BitVec 16) (dseg : BitVec 8) (payload : Word) (s : State), ∃ th : ThreadState,
    let after (kind : AtsKind) : State :=
      if s.params.cap.ats = false then
        { s with cq := { s.cq with cmdIll := true }, thread := th, trace := .signal .cq :: s.trace }
      else
        { s with
          cq := { s.cq with head := (s.cq.head + 1) % s.cq.size }
          trace := .atsEvent kind (if dsv = true then dseg ++ rid else 0#8 ++ rid) (if pv = true then pid else 0) payload
            :: s.trace }
    exec (.atsInval pid pv dsv rid dseg payload) s = .next (after .inval) ∧
    exec (.atsPrgr pid pv dsv rid dseg payload) s = .next (after .prgr)

/-- 43_commands.md R364: invalidating twice is invalidating once, the replaced generations stay as they are, and no
request in flight changes. -/
def Obligations.InvalidationIdempotent : Prop :=
  ∀ (scope : Scope) (s : State),
    ((s.invalTlb scope).invalTlb scope).iotlb = (s.invalTlb scope).iotlb ∧
    (s.invalTlb scope).iotlb.pinned = s.iotlb.pinned ∧ (s.invalTlb scope).inflight = s.inflight

/-- By key (43_commands.md R361, R363, R365): IOTINVAL.VMA makes the entry of every key in its scope invalid, and
leaves the entry of every other key as it was. -/
def Obligations.VmaInvalidatesExactlyItsScope : Prop :=
  ∀ (av : Bool) (pscid : BitVec 20) (pscv gv : Bool) (gscid : BitVec 16) (addr : BitVec 52) (s t : State),
    exec (.iotinvalVma av pscid pscv gv gscid addr) s = .next t →
      ∀ (g : BitVec 16) (p : BitVec 20) (v : BitVec 52),
        t.tlbEntry g p v = (s.tlbEntry g p v).map fun e =>
          if gv = false ∨ (g = gscid ∧ (pscv = false ∨ (p = pscid ∧ (av = false ∨ v = addr)))) then { e with valid := false }
          else e

/-- By key (43_commands.md R380 to R382): an IODIR command makes the context-cache entries of its device, or of its
device and process, invalid, leaves the entry of every other key as it was, and leaves the IOTLB as it was. -/
def Obligations.IodirInvalidatesExactlyItsScope : Prop :=
  ∀ (pid : BitVec 20) (dv : Bool) (did : BitVec 24) (s : State),
    (∀ t, exec (.iodirInvalDdt pid dv did) s = .next t → t.iotlb = s.iotlb ∧
      ∀ (d : BitVec 24) (p : BitVec 20), t.ctxEntry d p = (s.ctxEntry d p).map fun e =>
        if dv = false ∨ d = did then { e with valid := false } else e) ∧
    (∀ t, exec (.iodirInvalPdt pid dv did) s = .next t → t.iotlb = s.iotlb ∧
      ∀ (d : BitVec 24) (p : BitVec 20), t.ctxEntry d p = (s.ctxEntry d p).map fun e =>
        if dv = true ∧ d = did ∧ p = pid then { e with valid := false } else e)

/-- 43_commands.md R374, with R368, R370 and R376 for what each of the three ends leaves in the queue: every command
answers a next state, and it completes (the head advances), is illegal (`cmd_ill`, exactly in the cases of
30_encoding.md R166 and 43_commands.md R370), or fails its memory access (`cmd_mf`). -/
def Obligations.CommandsEndThreeWays : Prop :=
  ∀ (i : Instr) (s : State), ∃ t, exec i s = .next t ∧
    if i.wf = false ∨ (isAtsCommand i = true ∧ s.params.cap.ats = false) then
      t.cq = { s.cq with cmdIll := true } ∧ t.trace = .signal .cq :: s.trace
    else if fenceFails i s.failing = true then
      t.cq = { s.cq with cmdMf := true } ∧ t.trace.head? = some (.signal .cq)
    else t.cq = { s.cq with head := (s.cq.head + 1) % s.cq.size, fenceWIp := t.cq.fenceWIp }

/-- The frame of all seven commands (43_commands.md R361 to R387): what none of them changes, and which of the
opcodes of 30_encoding.md R165 may change memory and `fence_w_ip` (IOFENCE.C), the IOTLB (IOTINVAL) and the context
cache (IODIR); the caches keep their keys, their order and their replaced generations. -/
def Obligations.CommandFrame : Prop :=
  ∀ (i : Instr) (s t : State), exec i s = .next t →
    t = { s with mem := t.mem, ctxCache := t.ctxCache, iotlb := t.iotlb, cq := t.cq, thread := t.thread, trace := t.trace } ∧
    (∃ l, t.trace = l ++ s.trace) ∧
    (t.cq.base = s.cq.base ∧ t.cq.size = s.cq.size ∧ t.cq.tail = s.cq.tail ∧ t.cq.state = s.cq.state) ∧
    (opcodeOf i ≠ 0x002#10 → t.mem = s.mem ∧ t.cq.fenceWIp = s.cq.fenceWIp ∧ t.cq.cmdMf = s.cq.cmdMf) ∧
    (opcodeOf i ≠ 0x001#10 → opcodeOf i ≠ 0x081#10 → t.iotlb = s.iotlb) ∧
    (opcodeOf i ≠ 0x003#10 → opcodeOf i ≠ 0x083#10 → t.ctxCache = s.ctxCache) ∧
    t.ctxCache.pinned = s.ctxCache.pinned ∧ t.iotlb.pinned = s.iotlb.pinned ∧
    t.ctxCache.current.number = s.ctxCache.current.number ∧ t.iotlb.current.number = s.iotlb.current.number ∧
    t.ctxCache.current.entries.map CtxEntry.ctx = s.ctxCache.current.entries.map CtxEntry.ctx ∧
    t.iotlb.current.entries.map TlbEntry.invalidate = s.iotlb.current.entries.map TlbEntry.invalidate

/-! ## Decoding -/

/-- 30_encoding.md R160 to R165, R168, R169: the 16 bytes of an encoded command decode to that command, for every
command and every value of every operand. -/
def Obligations.DecodeEncodeAgree : Prop :=
  ∀ i : Instr, decodeBytes (leDwords [(encode i).1, (encode i).2]) = .instr i

/-- 30_encoding.md R167, R168: two dwords that decode to a command hold that command's encoding in the bits that are
not reserved, and still decode to it when the reserved bits are 0. -/
def Obligations.ReservedBitsIgnored : Prop :=
  ∀ (d0 d1 : Word) (i : Instr), decode d0 d1 = .instr i →
    encode i = (d0 &&& ~~~ (reservedBits i).1, d1 &&& ~~~ (reservedBits i).2) ∧
    decode (d0 &&& ~~~ (reservedBits i).1) (d1 &&& ~~~ (reservedBits i).2) = .instr i

/-- 30_encoding.md R165 on the words of the examples of 43_commands.md R361 to R386, and 30_encoding.md R166: a word
decodes to no command exactly if its bits 9 to 0 are none of the seven. -/
def Obligations.TableWordsDecode : Prop :=
  decode 0x0000500300007401 0x800 = .instr (.iotinvalVma true 7 true true 5 2) ∧
  decode 0x0000500200000081 0 = .instr (.iotinvalGvma false 0 false true 5 0) ∧
  decode 0x0000123400000402 0x2400 = .instr (.iofenceC true false false false 0x1234 0x2400) ∧
  decode 0x0000030200000003 0 = .instr (.iodirInvalDdt 0 true 3) ∧
  decode 0x0000030200005083 0 = .instr (.iodirInvalPdt 5 true 3) ∧
  decode 0x0001000100005004 0x7000 = .instr (.atsInval 5 true false 0x100 0 0x7000) ∧
  decode 0x0101000200000084 1 = .instr (.atsPrgr 0 false true 0x100 1 1) ∧
  ∀ d0 d1 : Word, decode d0 d1 = .reject (.unknownCommand (d0.extractLsb' 0 10)) ↔
    d0.extractLsb' 0 10 ∉ [0x001#10, 0x081#10, 0x002#10, 0x003#10, 0x083#10, 0x004#10, 0x084#10]

/-! ## The command loop and the background thread -/

/-- 43_commands.md R360, R366, R367: where the background thread moves next inside the running command loop and the
16 bytes at the head of the ring can be read and hold a command, the step is that command's meaning on the state with
the read made. The same where the thread has read dwords of the command early (20_memory.md R87, R88): then those count
in place of memory's; and what a move that reads one dword early does. (That with an empty schedule the thread moves
first is the default move of log entry 2; the early reads are log entry 5; that the read of a command, its whole effect
and the advance of the head are one step is log entry 16.) -/
def Obligations.StepRunsDecodedCommand : Prop :=
  (∀ (i : Instr) (s : State) (rest : List Move),
    (s.schedule = .thread :: rest ∨ (s.schedule = [] ∧ rest = [])) → s.thread = .commands → s.cmdLatches = [] →
    s.cq.state = .on → s.cq.cmdIll = false → s.cq.cmdMf = false → s.cq.tail ≠ s.cq.head →
    accessFails s.failing .read (s.cq.base + BitVec.ofNat 64 (s.cq.head * 16)) 16 = false →
    decodeBytes ((List.range 16).map fun k => s.mem.at (s.cq.base + BitVec.ofNat 64 (s.cq.head * 16) + BitVec.ofNat 64 k)) = .instr i →
    step s = exec i { s with
      schedule := rest
      trace := .access .read (s.cq.base + BitVec.ofNat 64 (s.cq.head * 16)) 16 true :: s.trace }) ∧
  (∀ (i : Instr) (s : State) (rest : List Move) (d0 d1 : Word),
    (s.schedule = .thread :: rest ∨ (s.schedule = [] ∧ rest = [])) → s.thread = .commands →
    s.cq.state = .on → s.cq.cmdIll = false → s.cq.cmdMf = false → s.cq.tail ≠ s.cq.head →
    let a : Word := s.cq.base + BitVec.ofNat 64 (s.cq.head * 16)
    earlyOrNow s s.cmdLatches a = some d0 → earlyOrNow s s.cmdLatches (a + 8) = some d1 →
    decodeBytes (leDwords [d0, d1]) = .instr i →
    step s = exec i { s with schedule := rest, cmdLatches := [], trace := .access .read a 16 true :: s.trace }) ∧
  ∀ (s : State) (rest : List Move) (k : Nat), s.schedule = .latchCommand k :: rest → s.thread = .commands →
    s.cq.state = .on → s.cq.cmdIll = false → s.cq.cmdMf = false → s.cq.tail ≠ s.cq.head →
    let a : Word := s.cq.base + BitVec.ofNat 64 (s.cq.head * 16) + BitVec.ofNat 64 (8 * k)
    step s = .next { s with
      schedule := rest
      cmdLatches := if k < 2 ∧ (∀ l ∈ s.cmdLatches, l.addr ≠ a) then { addr := a, value := earlyOrNow s [] a } :: s.cmdLatches
        else s.cmdLatches }

/-- 43_commands.md R366, R370, 30_encoding.md R166: two dwords that hold no command stop the queue with `cmd_ill`, a
read that fails, of either dword, stops it with `cmd_mf`; the head stays, CQ_INT is signalled once, what was read early
is used up, and nothing else changes. (The early reads are log entry 5. That the thread is outside the loop afterwards
is log entry 15; here its state is left open. That with an empty schedule the thread moves first is the default move of
log entry 2. That the read and the stop are one step is log entry 16.) -/
def Obligations.CommandLoopStops : Prop :=
  ∀ (s : State) (rest : List Move),
    (s.schedule = .thread :: rest ∨ (s.schedule = [] ∧ rest = [])) → s.thread = .commands →
    s.cq.state = .on → s.cq.cmdIll = false → s.cq.cmdMf = false → s.cq.tail ≠ s.cq.head →
    let a : Word := s.cq.base + BitVec.ofNat 64 (s.cq.head * 16)
    (∀ d0 d1 : Word, earlyOrNow s s.cmdLatches a = some d0 → earlyOrNow s s.cmdLatches (a + 8) = some d1 →
      (d0.extractLsb' 0 10 ∉ [0x001#10, 0x081#10, 0x002#10, 0x003#10, 0x083#10, 0x004#10, 0x084#10]) →
      ∃ th : ThreadState, step s = .next { s with
        schedule := rest, cq := { s.cq with cmdIll := true }, thread := th, cmdLatches := []
        trace := .signal .cq :: .access .read a 16 true :: s.trace }) ∧
    (earlyOrNow s s.cmdLatches a = none ∨ earlyOrNow s s.cmdLatches (a + 8) = none →
      ∃ th : ThreadState, step s = .next { s with
        schedule := rest, cq := { s.cq with cmdMf := true }, thread := th, cmdLatches := []
        trace := .signal .cq :: .access .read a 16 false :: s.trace })

/-- 43_commands.md R360, R371, R390: inside the loop, a queue that is not ON, is stopped, or is empty is left
without a read of memory and without any other effect. (That the thread is then outside the loop, and drops what it has
read early, is log entry 15.) -/
def Obligations.StoppedQueueReadsNothing : Prop :=
  ∀ (s : State) (rest : List Move), s.schedule = .thread :: rest → s.thread = .commands →
    (s.cq.state ≠ .on ∨ s.cq.cmdIll = true ∨ s.cq.cmdMf = true ∨ s.cq.tail = s.cq.head) →
    step s = .next { s with schedule := rest, thread := .idle, cmdLatches := [] }

/-- 10_state.md R62, 43_commands.md R360: the head of the command queue changes only in a move of the background
thread, when software writes it or reconfigures the queue, or at realize; a request and what it reads early change
nothing of the command queue, of the background thread, of `ddtp` or of the pending actions. (That software's write of the head
is taken in every state of the queue, and a reconfiguration's effect on it, are log entry 23; that a reconfiguration is
taken in every state is log entry 31.) -/
def Obligations.OnlyTheThreadAdvancesCqHead : Prop :=
  ∀ (m : Move) (s t : State), perform m s = .next t →
    (t.cq.head ≠ s.cq.head → m = .thread ∨ m = .realize ∨ (∃ v, m = .software (.writeHead .cq v)) ∨
      ∃ base size, m = .software (.configQueue .cq base size)) ∧
    ((∃ id, m = .advance id) ∨ (∃ id k, m = .latch id k) ∨ (∃ d p a k, m = .request d p a k) →
      t.cq = s.cq ∧ t.thread = s.thread ∧ t.ddtp = s.ddtp ∧ t.pending = s.pending ∧ t.cmdLatches = s.cmdLatches)

/-- 10_state.md R61, R65 with the clearing transitions of 43_commands.md R390 and 60_exceptions.md R437: a status bit
that is set is cleared only by software, by the enabling of its queue, or at realize. (That enabling clears the bits of
a queue that is off only, and leaves one that is on or active as it is, is log entry 7.) -/
def Obligations.StatusBitsAreSticky : Prop :=
  ∀ (m : Move) (s t : State), perform m s = .next t → m ≠ .realize →
    (s.cq.cmdIll = true → t.cq.cmdIll = false → (∃ mf f, m = .software (.clearCq true mf f)) ∨ (m = .thread ∧ t.cq.state = .enabling)) ∧
    (s.cq.cmdMf = true → t.cq.cmdMf = false → (∃ ill f, m = .software (.clearCq ill true f)) ∨ (m = .thread ∧ t.cq.state = .enabling)) ∧
    (s.fq.overflow = true → t.fq.overflow = false → (∃ mf ip, m = .software (.clearFq true mf ip)) ∨
      (m = .thread ∧ s.fq.active = false ∧ t.fq.active = true)) ∧
    (s.fq.memFault = true → t.fq.memFault = false → (∃ f ip, m = .software (.clearFq f true ip)) ∨
      (m = .thread ∧ s.fq.active = false ∧ t.fq.active = true)) ∧
    (s.pq.overflow = true → t.pq.overflow = false → (∃ mf ip, m = .software (.clearPq true mf ip)) ∨
      (m = .thread ∧ s.pq.active = false ∧ t.pq.active = true)) ∧
    (s.pq.memFault = true → t.pq.memFault = false → (∃ f ip, m = .software (.clearPq f true ip)) ∨
      (m = .thread ∧ s.pq.active = false ∧ t.pq.active = true))

/-- 43_commands.md R373: the background thread takes the pending action of the highest priority. (That it looks at the
priority order again after each action, between two actions of one drain too, is log entry 28; that the debug request is
a refusal is log entry 11.) -/
def Obligations.ActionPriority : Prop :=
  ∀ (s : State) (rest : List Move), s.schedule = .thread :: rest → s.thread = .idle →
    (∀ d, s.pending.ddtp = some d →
      step s = .next { s with schedule := rest, ddtp := d, pending := { s.pending with ddtp := none } }) ∧
    (s.pending.ddtp = none →
      (∀ e, s.pending.cqControl = some e → ∃ q c,
        step s = .next { s with schedule := rest, cq := q, pending := { s.pending with cqControl := c } }) ∧
      (s.pending.cqControl = none →
        (s.pending.cqTail = true →
          step s = .next { s with schedule := rest, thread := .commands, pending := { s.pending with cqTail := false } }) ∧
        (s.pending.cqTail = false →
          (∀ e, s.pending.fqControl = some e → ∃ q,
            step s = .next { s with schedule := rest, fq := q, pending := { s.pending with fqControl := none } }) ∧
          (s.pending.fqControl = none →
            (∀ e, s.pending.pqControl = some e → ∃ q,
              step s = .next { s with schedule := rest, pq := q, pending := { s.pending with pqControl := none } }) ∧
            (s.pending.pqControl = none →
              step s = if s.pending.debug = true then .refused .debugTranslation else .next { s with schedule := rest })))))

/-- 10_state.md R33, R34, 30_encoding.md R120, R121: a write of the `ddtp` register with a legal mode and no reserved
bit set waits as a pending change and leaves `ddtp` as it was, any other write is rejected; and `ddtp` changes only
when the background thread takes the pending change, to the value asked for, or at realize. (That rejecting leaves only
a notice is log entry 8; that a write takes the place of one still pending is log entry 29.) -/
def Obligations.DdtpChangesOnlyAsynchronously : Prop :=
  (∀ (v : Word) (s : State),
    softwareStep (.writeDdtp v) s =
      (match (if (v.extractLsb' 5 5 = 0#5 ∧ v.extractLsb' 54 10 = 0#10) then
          [DdtpMode.off, .bare, .lvl1, .lvl2, .lvl3][(v.extractLsb' 0 4).toNat]? else none) with
        | some mode => { s with pending := { s.pending with ddtp := some { mode, ppn := v.extractLsb' 10 44 } } }
        | none => { s with trace := .rejected .illegalDdtp :: s.trace })) ∧
  ∀ (m : Move) (s t : State), perform m s = .next t → t.ddtp ≠ s.ddtp →
    (m = .thread ∧ s.thread = .idle ∧ s.pending.ddtp = some t.ddtp ∧ t.pending.ddtp = none) ∨ m = .realize

/-- 43_commands.md R390, 60_exceptions.md R437: enabling and disabling the three queues. (The two steps of the
command queue, and that disabling one that is off changes nothing, are log entries 24 and 7.) -/
def Obligations.QueueControl : Prop :=
  (∀ s : State, s.thread = .idle → s.pending.ddtp = none → s.pending.cqControl = some true → s.cq.state = .disabled →
    ∃ u, threadStep s = .next u ∧ u.cq.state = .enabling ∧
      threadStep u = .next { s with
        cq := { s.cq with head := 0, tail := 0, cmdIll := false, cmdMf := false, fenceWIp := false, state := .on }
        pending := { s.pending with cqControl := none } }) ∧
  (∀ s : State, s.thread = .idle → s.pending.ddtp = none → s.pending.cqControl = some false →
    threadStep s = .next { s with cq := { s.cq with state := .disabled }, pending := { s.pending with cqControl := none } }) ∧
  (∀ q : RecQueue, q.active = false →
    q.control true = { q with head := 0, tail := 0, overflow := false, memFault := false, active := true }) ∧
  (∀ q : RecQueue, q.control false = { q with active := false }) ∧
  (∀ (s : State) (e : Bool), s.thread = .idle → s.pending.ddtp = none → s.pending.cqControl = none → s.pending.cqTail = false →
    (s.pending.fqControl = some e →
      threadStep s = .next { s with fq := s.fq.control e, pending := { s.pending with fqControl := none } }) ∧
    (s.pending.fqControl = none → s.pending.pqControl = some e →
      threadStep s = .next { s with pq := s.pq.control e, pending := { s.pending with pqControl := none } }))

/-! ## Requests: the link from a step of the machine to a step of a request -/

/-- 60_exceptions.md R455, 10_state.md R48: where the next move is that of the request numbered `id`, the step is that
request's next step; a request that goes on stands, alone of all requests, at the place it goes on to; one that has its
result returns it, as the last thing it sends out, and alone leaves. Every other agent's move leaves a request in flight
as it is, with the context, the walk or the result it has (20_memory.md R93, 43_commands.md R378): after an invalidation
or a fence it completes with what it had read. Last, a move that reads one dword of the structure a request reads next
early, and what the read of a structure then gives (20_memory.md R87, R88). (The schedule is log entry 2, the early reads
are log entry 5, what realize does to a request is log entry 30.) -/
def Obligations.StepRunsTheRequest : Prop :=
  (∀ (s : State) (id : Nat) (rest : List Move) (f : InFlight), s.schedule = .advance id :: rest →
    s.lookupInflight id = some f → step s = requestStep f { s with schedule := rest }) ∧
  (∀ (s : State) (f g : InFlight) (p : Progress), s.lookupInflight f.id = some g →
    (s.goOn f p).progressOf f.id = some p ∧
    ∀ id, id ≠ f.id → (s.goOn f p).lookupInflight id = s.lookupInflight id) ∧
  (∀ (s : State) (f : InFlight) (r : Result), f.progress = .ending r →
    ∃ t, requestStep f s = .next t ∧ t.lookupInflight f.id = none ∧ t.trace = .result f.id r :: s.trace ∧
      t.mem = s.mem ∧ t.ctxCache.current = s.ctxCache.current ∧ t.iotlb.current = s.iotlb.current ∧
      t.fq = s.fq ∧ t.pq = s.pq ∧ ∀ id, id ≠ f.id → t.lookupInflight id = s.lookupInflight id) ∧
  (∀ (m : Move) (s t : State) (id : Nat) (f : InFlight), perform m s = .next t → s.lookupInflight id = some f →
    m ≠ .advance id → (∀ k, m ≠ .latch id k) → m ≠ .realize → t.lookupInflight id = some f) ∧
  (∀ (s : State) (id k : Nat) (rest : List Move) (f : InFlight), s.schedule = .latch id k :: rest →
    s.lookupInflight id = some f →
    let early (a : Word) (n : Nat) : State :=
      let d : Word := a + BitVec.ofNat 64 (8 * k)
      ({ s with schedule := rest } : State).setInflight
        { f with latches := if k < n ∧ (∀ l ∈ f.latches, l.addr ≠ d) then { addr := d, value := earlyOrNow s [] d } :: f.latches
          else f.latches }
    step s = .next
      (match f.progress with
        | .resolving (.ddLeaf page) => early (dcAddr s.params f.req.devid page) (if s.params.cap.msiFlat = true then 8 else 4)
        | .resolving (.pdLeaf _ page) => early (pcAddr f.req.pid page) 2
        | .translating ctx (.msiPte _ ifn _ _) => early (msiPteAddr ctx ifn) 2
        | _ => { s with schedule := rest })) ∧
  ∀ (s : State) (latches : List Latch) (a : Word) (n : Nat) (ds : List Word),
    s.readDwords latches a n = some ds ↔
      ds.length = n ∧ ∀ k, k < n → earlyOrNow s latches (a + BitVec.ofNat 64 (8 * k)) = some (ds.getD k 0)

/-! ## Context resolution -/

/-- 40_context.md R201 with 41_translation.md R253: a request first emits URQ (ATS_RQ for ATS), then looks its context
up by exact key in the current generation and pins it; a valid entry gives its context with no further event and no
access, anything else is a miss. (That the event carries the scope tags 0, of 60_exceptions.md R441, even where the
lookup hits is log entry 19; that the event and the lookup are one step is log entry 2.) -/
def Obligations.ContextLookup : Prop :=
  ∀ (f : InFlight) (s : State), f.progress = .resolving .lookup →
    requestStep f s = .next
      ((s.emit (.event (if f.req.kind.isAts = true then .atsRq else .urq) f.req.devid f.req.pid 0 0)).goOn
        { f with ctxGen := some s.ctxCache.current.number }
        (match s.ctxCache.current.entries.find? fun e => decide (e.ctx.devid = f.req.devid ∧ e.ctx.pid = f.req.pid) with
          | none => .resolving .makeRoom
          | some e => if e.valid = true then .translating e.ctx .lookup else .resolving .makeRoom))

/-- 40_context.md R202, R203 to R207, 10_state.md R46: on a miss a full current generation is replaced by an empty one,
which the request pins; then `ddtp` is sampled: Off fails with 256, Bare gives the pass-through context, and a tree of L
levels fails with 260 for a device id that does not fit it and else starts at its root; no memory is read. (That the new
generation's number is the next one is log entry 20; that the replacement is one step and the sample another is log
entry 2.) -/
def Obligations.ContextMiss : Prop :=
  ∀ (f : InFlight) (s : State), s.lookupInflight f.id = some f →
    (f.progress = .resolving .makeRoom →
      let full := s.params.ctxCacheCapacity ≤ s.ctxCache.current.entries.length
      ∃ t g, requestStep f s = .next t ∧ t.lookupInflight f.id = some g ∧ g.progress = .resolving .walk ∧ g.req = f.req ∧
        t.trace = s.trace ∧ t.mem = s.mem ∧ t.iotlb.current = s.iotlb.current ∧ t.ddtp = s.ddtp ∧
        (full → t.ctxCache.current = { number := s.ctxCache.current.number + 1, entries := [] } ∧
          g.ctxGen = some t.ctxCache.current.number) ∧
        (¬ full → t.ctxCache = s.ctxCache ∧ g.ctxGen = f.ctxGen)) ∧
    (f.progress = .resolving .walk →
      requestStep f s = .next (s.goOn f (.resolving
        (match s.ddtp.mode with
          | .off => .report .allInboundDisallowed false
          | .bare => .insert { devid := f.req.devid, pid := f.req.pid, tc := 1, gatp := 0, satp := 0, ta := 0, msiptp := 0,
                               msiAddrMask := 0, msiAddrPattern := 0 }
          | .lvl1 =>
            if 2 ^ (if s.params.cap.msiFlat = true then 6 else 7) ≤ f.req.devid.toNat then .report .transactionTypeDisallowed false
            else .ddLeaf (0#8 ++ s.ddtp.ppn ++ 0#12)
          | .lvl2 =>
            if 2 ^ (if s.params.cap.msiFlat = true then 15 else 16) ≤ f.req.devid.toNat then .report .transactionTypeDisallowed false
            else .ddEntry 1 (0#8 ++ s.ddtp.ppn ++ 0#12)
          | .lvl3 => .ddEntry 2 (0#8 ++ s.ddtp.ppn ++ 0#12)))))

/-- 30_encoding.md R123, R136 with 40_context.md R208, R210, R211, R222, R223: the addresses of the directory entries and of
the contexts, by the index fields of the identifiers. -/
def Obligations.DirectoryIndices : Prop :=
  ∀ (p : Params) (devid : BitVec 24) (pid : BitVec 20) (page : Word),
    (p.cap.msiFlat = true →
      ddEntryAddr p devid 1 page = page + (devid.extractLsb' 6 9).setWidth 64 * 8 ∧
      ddEntryAddr p devid 2 page = page + (devid.extractLsb' 15 9).setWidth 64 * 8 ∧
      dcAddr p devid page = page + (devid.extractLsb' 0 6).setWidth 64 * 64) ∧
    (p.cap.msiFlat = false →
      ddEntryAddr p devid 1 page = page + (devid.extractLsb' 7 9).setWidth 64 * 8 ∧
      ddEntryAddr p devid 2 page = page + (devid.extractLsb' 16 8).setWidth 64 * 8 ∧
      dcAddr p devid page = page + (devid.extractLsb' 0 7).setWidth 64 * 32) ∧
    pdEntryAddr pid 1 page = page + (pid.extractLsb' 8 9).setWidth 64 * 8 ∧
    pdEntryAddr pid 2 page = page + (pid.extractLsb' 17 3).setWidth 64 * 8 ∧
    pcAddr pid page = page + (pid.extractLsb' 0 8).setWidth 64 * 16

/-- 40_context.md R208, R222: one non-leaf directory entry, read, counted and checked: load fault, then the valid
bit, then the reserved bits, then the next page. (That DD_WALK and PD_WALK carry the scope tags 0, of 60_exceptions.md
R441, is log entry 19; that the event, the read and the checks are one step is log entry 2.) -/
def Obligations.DirectoryEntryChecks : Prop :=
  ∀ (f : InFlight) (s : State) (lvl : Nat) (page : Word),
    (f.progress = .resolving (.ddEntry lvl page) →
      let a := ddEntryAddr s.params f.req.devid lvl page
      requestStep f s = .next
        (((s.emit (.event .ddWalk f.req.devid f.req.pid 0 0)).emit (.access .read a 8 (s.readWord a 8).isSome)).goOn f (.resolving
            (match s.readWord a 8 with
              | none => .report .ddtLoadFault false
              | some de =>
                if de.getLsbD 0 = false then .report .ddtInvalid false
                else if de.extractLsb' 1 9 ≠ 0 ∨ de.extractLsb' 54 10 ≠ 0 then .report .ddtMisconfigured false
                else if lvl - 1 = 0 then .ddLeaf (0#8 ++ de.extractLsb' 10 44 ++ 0#12)
                else .ddEntry (lvl - 1) (0#8 ++ de.extractLsb' 10 44 ++ 0#12))))) ∧
    (∀ ctx : Ctx, f.progress = .resolving (.pdEntry ctx lvl page) →
      let a := pdEntryAddr f.req.pid lvl page
      requestStep f s = .next
        (((s.emit (.event .pdWalk f.req.devid f.req.pid 0 0)).emit (.access .read a 8 (s.readWord a 8).isSome)).goOn f (.resolving
            (match s.readWord a 8 with
              | none => .report .pdtLoadFault (ctx.tc.getLsbD 4)
              | some pe =>
                if pe.getLsbD 0 = false then .report .pdtInvalid (ctx.tc.getLsbD 4)
                else if pe.extractLsb' 1 9 ≠ 0 ∨ pe.extractLsb' 54 10 ≠ 0 then .report .pdtMisconfigured (ctx.tc.getLsbD 4)
                else if lvl - 1 = 0 then .pdLeaf ctx (0#8 ++ pe.extractLsb' 10 44 ++ 0#12)
                else .pdEntry ctx (lvl - 1) (0#8 ++ pe.extractLsb' 10 44 ++ 0#12)))))

/-- 40_context.md R211 to R215: what a device context's dwords lead to: a failed read is 257; `tc.V` clear is 258; the
checks of R215 are 259; both with the loaded `DTF`; else the words are copied bit for bit, the last three only in the
extended format, and the process is selected. And the step that reads it: one DD_WALK, one read of the 64 or 32 bytes at
its address, and the request goes where the checks lead: to the report, to the insertion, or to the root of the process
directory at `pdtp.PPN` (R219, R221). (The scope tags 0 are log entry 19, dwords read early log entry
5; that the event, the read and the checks are one step is log entry 2.) -/
def Obligations.DeviceContextChecks : Prop :=
  (∀ (f : InFlight) (s : State) (page : Word), f.progress = .resolving (.ddLeaf page) →
    let a := dcAddr s.params f.req.devid page
    let n := if s.params.cap.msiFlat = true then 8 else 4
    let r := s.readDwords f.latches a n
    requestStep f s = .next
      (((s.emit (.event .ddWalk f.req.devid f.req.pid 0 0)).emit (.access .read a (8 * n) r.isSome)).goOn f (.resolving
        (match deviceContext s.params f.req r with
          | .fail cause dtf => .report cause dtf
          | .done ctx => .insert ctx
          | .processDirectory ctx levels =>
            if levels - 1 = 0 then .pdLeaf ctx (0#8 ++ ctx.satp.extractLsb' 0 44 ++ 0#12)
            else .pdEntry ctx (levels - 1) (0#8 ++ ctx.satp.extractLsb' 0 44 ++ 0#12))))) ∧
  ∀ (p : Params) (r : Request),
    deviceContext p r none = .fail .ddtLoadFault false ∧
    ∀ tc gatp ta satp msiptp mask pattern d7 : Word,
      let c : Ctx := { devid := r.devid, pid := r.pid, tc, gatp, satp, ta,
                       msiptp := if p.cap.msiFlat = true then msiptp else 0,
                       msiAddrMask := if p.cap.msiFlat = true then mask else 0,
                       msiAddrPattern := if p.cap.msiFlat = true then pattern else 0 }
      let o := deviceContext p r (some [tc, gatp, ta, satp, msiptp, mask, pattern, d7])
      (tc.getLsbD 0 = false → o = .fail .ddtInvalid (tc.getLsbD 4)) ∧
      (tc.getLsbD 0 = true → dcBad p tc gatp satp c.msiptp → o = .fail .ddtMisconfigured (tc.getLsbD 4)) ∧
      (tc.getLsbD 0 = true → ¬ dcBad p tc gatp satp c.msiptp → o = selectProcess p c) ∧
      (p.cap.msiFlat = false →
        deviceContext p r (some [tc, gatp, ta, satp]) = deviceContext p r (some [tc, gatp, ta, satp, msiptp, mask, pattern, d7]))

/-- 40_context.md R216 to R220, 30_encoding.md R131: the process selection of a device context whose first-stage word
passed the checks. -/
def Obligations.ProcessSelection : Prop :=
  ∀ (p : Params) (c : Ctx), (c.tc.getLsbD 5 = true → pdModeListed p.cap (c.satp.extractLsb' 60 4)) →
    selectProcess p c =
      (if c.tc.getLsbD 5 = false then
        (if c.pid = 0 then .done c else .fail .transactionTypeDisallowed (c.tc.getLsbD 4))
      else if c.pid = 0 ∧ c.tc.getLsbD 9 = false then .done { c with satp := 0 }
      else if c.satp.extractLsb' 60 4 = 0 then .done c
      else if 2 ^ ([8, 17, 20].getD ((c.satp.extractLsb' 60 4).toNat - 1) 0) ≤ c.pid.toNat then
        .fail .transactionTypeDisallowed (c.tc.getLsbD 4)
      else .processDirectory c (c.satp.extractLsb' 60 4).toNat)

/-- 40_context.md R224 to R227, 30_encoding.md R130, R137: what a process context's two dwords lead to. And the step
that reads it: one PD_WALK, one read of the 16 bytes at its address, and the request goes where the checks lead. (The
scope tags 0 are log entry 19, dwords read early log entry 5; that the event, the read and the checks are one step is log
entry 2.) -/
def Obligations.ProcessContextChecks : Prop :=
  (∀ (f : InFlight) (ctx : Ctx) (s : State) (page : Word), f.progress = .resolving (.pdLeaf ctx page) →
    let a := pcAddr f.req.pid page
    let r := s.readDwords f.latches a 2
    requestStep f s = .next
      (((s.emit (.event .pdWalk f.req.devid f.req.pid 0 0)).emit (.access .read a 16 r.isSome)).goOn f (.resolving
        (match processContext s.params ctx r with
          | .fail cause dtf => .report cause dtf
          | .done c => .insert c
          | .processDirectory c levels => pdPhase c (levels - 1) (pageBase (ppnField c.satp)))))) ∧
  (∀ (p : Params) (c : Ctx) (ds : Option (List Word)) (c' : Ctx) (levels : Nat), processContext p c ds ≠ .processDirectory c' levels) ∧
  ∀ (p : Params) (c : Ctx),
    processContext p c none = .fail .pdtLoadFault (c.tc.getLsbD 4) ∧
    ∀ pta pfsc : Word,
      let bad := (∃ i, ((3 ≤ i ∧ i < 12) ∨ (32 ≤ i ∧ i < 64)) ∧ pta.getLsbD i = true) ∨
        ¬ sModeListed p.cap (c.tc.getLsbD 11) (pfsc.extractLsb' 60 4)
      let o := processContext p c (some [pta, pfsc])
      (pta.getLsbD 0 = false → o = .fail .pdtInvalid (c.tc.getLsbD 4)) ∧
      (pta.getLsbD 0 = true → bad → o = .fail .pdtMisconfigured (c.tc.getLsbD 4)) ∧
      (pta.getLsbD 0 = true → ¬ bad → o = .done { c with ta := pta, satp := pfsc })

/-- 40_context.md R202, 10_state.md R39, R40: a resolved context replaces the entry of its key, and no other, in the
generation the request pins, if that is still current; else the insertion is lost; the request goes on with the
context either way. (How the request's work is cut into steps is log
entry 2.) -/
def Obligations.ContextInsertion : Prop :=
  ∀ (f : InFlight) (ctx : Ctx) (s : State), f.progress = .resolving (.insert ctx) → s.lookupInflight f.id = some f →
    ∃ t, requestStep f s = .next t ∧ t.mem = s.mem ∧ t.trace = s.trace ∧ t.iotlb = s.iotlb ∧
      t.progressOf f.id = some (.translating ctx .lookup) ∧
      (f.ctxGen = some s.ctxCache.current.number →
        t.ctxCache.current.number = s.ctxCache.current.number ∧ t.ctxCache.pinned = s.ctxCache.pinned ∧
        t.ctxEntry ctx.devid ctx.pid = some { ctx, valid := true } ∧
        ∀ (d : BitVec 24) (p : BitVec 20), ¬ (d = ctx.devid ∧ p = ctx.pid) → t.ctxEntry d p = s.ctxEntry d p) ∧
      (f.ctxGen ≠ some s.ctxCache.current.number → t.ctxCache = s.ctxCache)

/-- 60_exceptions.md R420, R425, 40_context.md R229, 90_conflicts.md C1: what a failed request writes before it has its
cause as its result: a fault record of a failed resolution unless `dtf`; of a later failure a fault record unless `tc.DTF`,
or, for an ATS request, no fault record and a page request if `tc.APRQ`; its cause is its result in every case. (That the
whole enqueue, the record's write with the advance of the tail and the pending bit, is one step of its request is log
entry 10; that the request then has its result, and returns it in a later step, is log entry 2.) -/
def Obligations.FailureReport : Prop :=
  ∀ (f : InFlight) (s : State),
    (∀ (cause : Cause) (dtf : Bool), f.progress = .resolving (.report cause dtf) →
      requestStep f s = .next ((if dtf = true then s else s.enqueueFq (faultRecord cause f.req 0)).goOn f (.ending (.fault cause)))) ∧
    (∀ (ctx : Ctx) (cause : Cause) (gpa2 : Word), f.progress = .translating ctx (.report cause gpa2) →
      (f.req.kind ≠ .ats → requestStep f s = .next
        ((if ctx.tc.getLsbD 4 = true then s else s.enqueueFq (faultRecord cause f.req gpa2)).goOn f (.ending (.fault cause)))) ∧
      (f.req.kind = .ats → requestStep f s = .next
        ((if ctx.tc.getLsbD s.params.tcAprqBit = true then s.enqueuePq (pageRequest f.req) else s).goOn f (.ending (.fault cause)))))

/-! ## Translation -/

/-- 41_translation.md R254 to R256: the ATS check comes first and its failure leaves no record; a hit, in the generation
it pins, gives the entry's page and permission with the mask of one page, reads nothing and sends nothing out; every
other lookup emits exactly one TLB_MISS, and nothing else, and reads no memory in this step. (That the check and the
lookup are one step, and that the result of a failed check or of a hit is returned in a later one, is the model's
granularity, log entry 2.) -/
def Obligations.AtsCheckThenIotlbLookup : Prop :=
  ∀ (f : InFlight) (ctx : Ctx) (s : State), f.progress = .translating ctx .lookup →
    (f.req.kind = .ats → (ctx.tc.getLsbD 1 = false ∨ s.params.cap.ats = false) →
      requestStep f s = .next (s.goOn f (.ending (.fault .transactionTypeDisallowed)))) ∧
    ((f.req.kind = .ats → ctx.tc.getLsbD 1 = true ∧ s.params.cap.ats = true) →
      (∀ e, s.tlbEntry (ctx.gatp.extractLsb' 44 16) (ctx.ta.extractLsb' 12 20) (f.req.iova.extractLsb' 12 52) = some e →
        e.valid = true → e.perm.covers f.req.kind = true →
        requestStep f s = .next (s.goOn { f with tlbGen := some s.iotlb.current.number }
          (.ending (.ok ((e.ppn.setWidth 64 <<< 12) ||| (f.req.iova &&& 0xFFF)) 0xFFF e.perm)))) ∧
      ((∀ e, s.tlbEntry (ctx.gatp.extractLsb' 44 16) (ctx.ta.extractLsb' 12 20) (f.req.iova.extractLsb' 12 52) = some e →
          e.valid = false ∨ e.perm.covers f.req.kind = false) →
        ∀ t, requestStep f s = .next t → t.mem = s.mem ∧ t.ctxCache = s.ctxCache ∧ t.iotlb = s.iotlb ∧
          (∀ g, t.lookupInflight f.id = some g → g.tlbGen = some s.iotlb.current.number ∧ g.req = f.req) ∧
          t.trace = .event .tlbMiss f.req.devid f.req.pid (ctx.gatp.extractLsb' 44 16) (ctx.ta.extractLsb' 12 20) :: s.trace))

/-- 41_translation.md R256, R258, R260 with 42_msi.md R323: with both stages Bare a request that misses emits one TLB_MISS
and gets its own address with full permission, and nothing enters the IOTLB; but a WRITE that the MSI filter matches
takes the MSI path, where an interrupt-file number out of range is 261. (That the event, the MSI test and the result are
one step, and that the result is returned in a later one, is the model's granularity, log entry 2.) -/
def Obligations.PassThrough : Prop :=
  ∀ (f : InFlight) (ctx : Ctx) (s : State), f.progress = .translating ctx .lookup → s.lookupInflight f.id = some f →
    ctx.satp.extractLsb' 60 4 = 0 → ctx.gatp.extractLsb' 60 4 = 0 →
    (f.req.kind = .ats → ctx.tc.getLsbD 1 = true ∧ s.params.cap.ats = true) →
    (∀ e, s.tlbEntry ctx.gscid ctx.pscid (f.req.iova.extractLsb' 12 52) = some e →
      e.valid = false ∨ e.perm.covers f.req.kind = false) →
    ∃ t, requestStep f s = .next t ∧ t.iotlb = s.iotlb ∧ t.mem = s.mem ∧
      t.trace = .event .tlbMiss f.req.devid f.req.pid ctx.gscid ctx.pscid :: s.trace ∧
      ((∃ data size, f.req.kind = .write data size ∧ msiMatch ctx f.req.iova = true ∧
          t.progressOf f.id = some (.translating ctx
            (if s.params.msiIfnLimit ≤ (msiIfn ctx f.req.iova).toNat then .report .msiPteLoadFault 0
             else .msiPte f.req.iova (msiIfn ctx f.req.iova) data size))) ∨
        ((f.req.kind.isWrite = true → msiMatch ctx f.req.iova = false) ∧
          t.progressOf f.id = some (.ending (.ok f.req.iova 0xFFF { r := true, w := true }))))

/-- 41_translation.md R271 to R273 with 30_encoding.md R128, R130, R140: the geometry of every mode under `CAP`, `SXL`
and `GXL`, row by row (levels, index bits, root bits, bytes of an entry, width); where a walk starts; the range check,
which asks, for a stage-1 mode wider than 32 bits, that the address is the sign extension of its low bits, and for Sv32
and every stage-2 mode, that it is their zero extension; and the address of the entry a walk reads at a level: the base
plus the index field of the address times the bytes of an entry. -/
def Obligations.RangeCheckIsExtension : Prop :=
  (∀ (cap : Cap) (sxl : Bool) (mode : BitVec 4),
    let rows : List (Bool × BitVec 4 × Bool × Geometry) :=
      [(true, 8, cap.sv32, { levels := 2, indexBits := 10, rootBits := 0, pteBytes := 4, width := 32 }),
       (false, 8, cap.sv39, { levels := 3, indexBits := 9, rootBits := 0, pteBytes := 8, width := 39 }),
       (false, 9, cap.sv48, { levels := 4, indexBits := 9, rootBits := 0, pteBytes := 8, width := 48 }),
       (false, 10, cap.sv57, { levels := 5, indexBits := 9, rootBits := 0, pteBytes := 8, width := 57 })]
    sGeometry cap sxl mode = (rows.find? fun r => r.1 == sxl && r.2.1 == mode && r.2.2.1).map fun r => r.2.2.2) ∧
  (∀ (cap : Cap) (gxl : Bool) (mode : BitVec 4),
    let rows : List (Bool × BitVec 4 × Bool × Geometry) :=
      [(true, 8, cap.sv32x4, { levels := 2, indexBits := 10, rootBits := 2, pteBytes := 4, width := 34 }),
       (false, 8, cap.sv39x4, { levels := 3, indexBits := 9, rootBits := 2, pteBytes := 8, width := 41 }),
       (false, 9, cap.sv48x4, { levels := 4, indexBits := 9, rootBits := 2, pteBytes := 8, width := 50 }),
       (false, 10, cap.sv57x4, { levels := 5, indexBits := 9, rootBits := 2, pteBytes := 8, width := 59 })]
    gGeometry cap gxl mode = (rows.find? fun r => r.1 == gxl && r.2.1 == mode && r.2.2.1).map fun r => r.2.2.2) ∧
  (∀ (stage : Stage) (geom : Geometry) (root : BitVec 44) (a m : Word) (p : Perm),
    startWalk stage geom root a m p =
      { stage, geom, level := geom.levels - 1, base := 0#8 ++ root ++ 0#12, addr := a, mask := m, perm := p }) ∧
  (∀ a : Word,
    (∀ w ∈ [39, 48, 57], rangeOk .s w a = decide ((a.setWidth w).signExtend 64 = a)) ∧
    rangeOk .s 32 a = decide ((a.setWidth 32).setWidth 64 = a) ∧
    (∀ w ∈ [34, 41, 50, 59], rangeOk .g w a = decide ((a.setWidth w).setWidth 64 = a))) ∧
  ∀ w : WalkState,
    let from_ := 12 + w.geom.indexBits * w.level
    let bits := w.geom.indexBits + (if w.level + 1 = w.geom.levels then w.geom.rootBits else 0)
    w.entryAddr = w.base + BitVec.ofNat 64 (w.addr.toNat / 2 ^ from_ % 2 ^ bits * w.geom.pteBytes)

/-- 41_translation.md R277 to R282: which entries are a page fault of the stage, and which point to the next level. -/
def Obligations.EntryChecks : Prop :=
  ∀ (kind : ReqKind) (ade : Bool) (w : WalkState) (pte : Word),
    let V := pte.getLsbD 0; let R := pte.getLsbD 1; let W := pte.getLsbD 2; let X := pte.getLsbD 3
    let A := pte.getLsbD 6; let D := pte.getLsbD 7
    (walkEntry kind ade w pte = .bad ↔
      V = false ∨
      (R = false ∧ W = false ∧ X = false ∧ w.level = 0) ∨
      ((R = true ∨ W = true ∨ X = true) ∧
        ((W = true ∧ R = false) ∨
          (∃ i, i < 44 ∧ i < w.geom.indexBits * w.level ∧ pte.getLsbD (10 + i) = true) ∨
          (kind ≠ .ats ∧ kind.isWrite = false ∧ R = false) ∨
          (kind.isWrite = true ∧ W = false) ∨
          (kind ≠ .ats ∧ ade = false ∧ (A = false ∨ (kind.isWrite = true ∧ D = false)))))) ∧
    (∀ base, walkEntry kind ade w pte = .pointer base ↔
      V = true ∧ R = false ∧ W = false ∧ X = false ∧ w.level ≠ 0 ∧ base = (pte.extractLsb' 10 44).setWidth 64 <<< 12)

/-- 41_translation.md R283: the address, the mask and the permission a leaf gives, bit by bit; `skip` is 12 plus the
index bits below the level. -/
def Obligations.LeafResultBits : Prop :=
  ∀ (kind : ReqKind) (ade : Bool) (w : WalkState) (pte out m : Word) (perm : Perm),
    walkEntry kind ade w pte = .leaf out m perm →
      (∀ i, i < 64 →
        out.getLsbD i = (if i < 12 + w.geom.indexBits * w.level then w.addr.getLsbD i
          else decide (i < 56) && pte.getLsbD (i - 2)) ∧
        m.getLsbD i = decide (i < 12 + w.geom.indexBits * w.level)) ∧
      perm.r = (pte.getLsbD 1 && (ade || pte.getLsbD 6)) ∧
      perm.w = (pte.getLsbD 2 && (ade || (pte.getLsbD 6 && pte.getLsbD 7)))

/-- 41_translation.md R273, R274, R276, R277 to R285, 60_exceptions.md R440: every entry of a walk is one step with one
S_WALK or G_WALK and one read, and the step sends nothing else out. A stage-2 entry of the implicit translation of a
stage-1 entry's address is checked as a READ's, a failure has the direction of the request and records the stage-1
entry's address, and a leaf gives the address of the stage-1 entry without touching the mask and the permission gathered
so far; a stage-1 entry and a stage-2 entry of the data path are checked as the request's. (That a read and its checks
are one step is log entry 2.) -/
def Obligations.ImplicitWalkChecksAsRead : Prop :=
  ∀ (f : InFlight) (ctx : Ctx) (w : WalkState) (s : State),
    let read (e : PerfEvent) (a : Word) : State :=
      (s.emit (.event e f.req.devid f.req.pid ctx.gscid ctx.pscid)).emit
        (.access .read a w.geom.pteBytes (s.readWord a w.geom.pteBytes).isSome)
    (∀ u : WalkState, f.progress = .translating ctx (.sImplicit u w) →
      requestStep f s = .next ((read .gWalk w.entryAddr).goOn f (.translating ctx
        (match s.readWord w.entryAddr w.geom.pteBytes with
          | none => .report (if f.req.kind.isWrite = true then .writeAccessFault else .readAccessFault) 0
          | some pte =>
            match walkEntry .read (ctx.tc.getLsbD 7) w pte with
            | .bad => .report (if f.req.kind.isWrite = true then .writeGuestPageFault else .readGuestPageFault) w.addr
            | .pointer base => .sImplicit u { w with level := w.level - 1, base }
            | .leaf out _ _ => .sWalk u out)))) ∧
    (f.progress = .translating ctx (.gWalk w) →
      requestStep f s = .next ((read .gWalk w.entryAddr).goOn f
        (match s.readWord w.entryAddr w.geom.pteBytes with
          | none => .translating ctx (.report (if f.req.kind.isWrite = true then .writeAccessFault else .readAccessFault) 0)
          | some pte =>
            match walkEntry f.req.kind (ctx.tc.getLsbD 7) w pte with
            | .bad => .translating ctx (.report (if f.req.kind.isWrite = true then .writeGuestPageFault else .readGuestPageFault) w.addr)
            | .pointer base => .translating ctx (.gWalk { w with level := w.level - 1, base })
            | .leaf out m p =>
              if msiMatch ctx w.addr = true then .ending (.ok out (w.mask &&& m) (w.perm.inter p))
              else .translating ctx (.tlbRoom out (w.mask &&& m) (w.perm.inter p))))) ∧
    ∀ pa : Word, f.progress = .translating ctx (.sWalk w pa) →
      (∀ t, requestStep f s = .next t → t.trace = (read .sWalk pa).trace) ∧
      (s.readWord pa w.geom.pteBytes = none → requestStep f s = .next ((read .sWalk pa).goOn f
        (.translating ctx (.report (if f.req.kind.isWrite = true then .writeAccessFault else .readAccessFault) 0)))) ∧
      ∀ pte, s.readWord pa w.geom.pteBytes = some pte →
        match walkEntry f.req.kind (ctx.tc.getLsbD 8) w pte with
        | .bad => requestStep f s = .next ((read .sWalk pa).goOn f
            (.translating ctx (.report (if f.req.kind.isWrite = true then .writePageFault else .readPageFault) 0)))
        | .pointer base =>
          let v : WalkState := { w with level := w.level - 1, base }
          requestStep f s = xlateStage1Entry f ctx v (read .sWalk pa) ∧
            (ctx.gatp.extractLsb' 60 4 = 0 → requestStep f s = .next ((read .sWalk pa).goOn f (.translating ctx (.sWalk v v.entryAddr))))
        | .leaf out m p =>
          requestStep f s = xlateAfterStage1 f ctx out (w.mask &&& m) (w.perm.inter p) (read .sWalk pa)

/-- 20_memory.md R81, with the spec's own inference 41_translation.md R293: the only moves that change memory are those of the background thread
inside the command loop, of another agent's store, and of a request that forwards an MSI write, writes a pending bit
or a notice, or reports its failure. -/
def Obligations.OnlyMsiPathAndRecordsWriteMemory : Prop :=
  ∀ (m : Move) (s t : State), perform m s = .next t → t.mem ≠ s.mem →
    (m = .thread ∧ s.thread = .commands) ∨
    (∃ a size v, m = .software (.store a size v)) ∨
    (∃ id f, m = .advance id ∧ s.lookupInflight id = some f ∧
      ((∃ c d, f.progress = .resolving (.report c d)) ∨
        ∃ ctx, (∃ c g, f.progress = .translating ctx (.report c g)) ∨
          (∃ a d z, f.progress = .translating ctx (.msiForward a d z)) ∨
          (∃ a i x y, f.progress = .translating ctx (.mrifPendingWrite a i x y)) ∨
          (∃ x, f.progress = .translating ctx (.mrifNotice x))))

/-- 41_translation.md R290 with R255, R257, 10_state.md R46: with a capacity of 0 nothing is inserted; a full current
generation is first replaced by an empty one, which the request pins; a translation enters the generation the request
pins if that is still current, and is lost if it is not; and once it has been inserted, a lookup for the same scope, the
same page and a kind the permission covers hits, and gives the same page and the same permission. (That the new
generation's number is the next one is log entry 20; that the replacement, the insertion and the return of the result
are three steps is log entry 2.) -/
def Obligations.CachedTranslationEqualsWalk : Prop :=
  ∀ (f g : InFlight) (ctx : Ctx) (addr m : Word) (perm : Perm) (s : State),
    (f.progress = .translating ctx (.tlbRoom addr m perm) → s.lookupInflight f.id = some f →
      ∃ t h, requestStep f s = .next t ∧ t.lookupInflight f.id = some h ∧ h.req = f.req ∧ t.trace = s.trace ∧
        t.mem = s.mem ∧ t.ctxCache.current = s.ctxCache.current ∧
        if s.params.iotlbCapacity = 0 then t.iotlb = s.iotlb ∧ h.progress = .ending (.ok addr m perm)
        else h.progress = .translating ctx (.tlbInsert addr m perm) ∧
          if s.params.iotlbCapacity ≤ s.iotlb.current.entries.length then
            t.iotlb.current = { number := s.iotlb.current.number + 1, entries := [] } ∧ h.tlbGen = some t.iotlb.current.number
          else t.iotlb = s.iotlb ∧ h.tlbGen = f.tlbGen) ∧
    (f.progress = .translating ctx (.tlbInsert addr m perm) →
      (f.tlbGen ≠ some s.iotlb.current.number → requestStep f s = .next (s.goOn f (.ending (.ok addr m perm)))) ∧
      (f.tlbGen = some s.iotlb.current.number →
        ∃ t, requestStep f s = .next t ∧ t.trace = s.trace ∧ t.mem = s.mem ∧
          (s.lookupInflight f.id = some f → t.progressOf f.id = some (.ending (.ok addr m perm))) ∧
          t.iotlb.current.number = s.iotlb.current.number ∧ t.iotlb.pinned = s.iotlb.pinned ∧
          (∀ (a : BitVec 16) (b : BitVec 20) (v : BitVec 52),
            ¬ (a = ctx.gscid ∧ b = ctx.pscid ∧ v = f.req.iova.extractLsb' 12 52) → t.tlbEntry a b v = s.tlbEntry a b v) ∧
          (g.progress = .translating ctx .lookup → g.req.iova.extractLsb' 12 52 = f.req.iova.extractLsb' 12 52 →
            perm.covers g.req.kind = true → (g.req.kind = .ats → ctx.tc.getLsbD 1 = true ∧ s.params.cap.ats = true) →
            requestStep g t = .next (t.goOn { g with tlbGen := some t.iotlb.current.number }
              (.ending (.ok (addr.extractLsb' 12 52 ++ g.req.iova.extractLsb' 0 12) 0xFFF perm))))))

/-- 41_translation.md R261, R270 to R285: the steps of a request's stage-2 walk are the walk procedure `WalkStage(G, a)`
on one memory: with no other agent moving, the request takes at most one step a level, leaves memory as it was, and
comes to where the procedure's result leads. (How the request's work is cut into steps is log
entry 2.) -/
def Obligations.Stage2StepsAreTheWalk : Prop :=
  ∀ (f : InFlight) (ctx : Ctx) (w : WalkState) (s : State),
    s.lookupInflight f.id = some f → f.progress = .translating ctx (.gWalk w) →
    ∃ n t, n ≤ w.level + 1 ∧ runAlone f.id n s = .next t ∧ t.mem = s.mem ∧ t.ctxCache.current = s.ctxCache.current ∧
      t.iotlb.current = s.iotlb.current ∧
      match walkStage (readPte s f.req.kind w.geom.pteBytes) f.req.kind (tcGade ctx.tc) (pageFault .g f.req.kind, w.addr)
          (w.level + 1) w with
      | .error e => t.progressOf f.id = some (.translating ctx (.report e.1 e.2))
      | .ok (out, m, p) =>
        if msiMatch ctx w.addr = true then
          t.progressOf f.id = some (.ending (.ok out (w.mask &&& m) (w.perm.inter p)))
        else t.progressOf f.id = some (.translating ctx (.tlbRoom out (w.mask &&& m) (w.perm.inter p)))

/-- 41_translation.md R259 to R264, R270 to R285: the steps of a request that has missed in the IOTLB compute the data
path of the spec on one memory: stage 1 with its implicit stage-2 translations, the MSI check on the guest-physical
address, then stage 2. With no other agent moving, the request comes to the insertion (or, where the guest-physical
address passes the MSI test, to its result without an insertion), to the MSI path, or to the report of the cause and
the guest-physical address that the procedure gives. (How the request's work is cut into steps is log
entry 2.) -/
def Obligations.DataPathRefinesTheSpec : Prop :=
  ∀ (f : InFlight) (ctx : Ctx) (s : State),
    s.lookupInflight f.id = some f → f.progress = .translating ctx .lookup → ctx.modesOk s.params = true →
    (ctx.stage1On = true ∨ ctx.stage2On = true) →
    (f.req.kind = .ats → ctx.tc.getLsbD 1 = true ∧ s.params.cap.ats = true) →
    (∀ e, s.tlbEntry ctx.gscid ctx.pscid (f.req.iova.extractLsb' 12 52) = some e →
      e.valid = false ∨ e.perm.covers f.req.kind = false) →
    ∃ n t, runAlone f.id n s = .next t ∧ t.mem = s.mem ∧ t.ctxCache.current = s.ctxCache.current ∧
      t.iotlb.current = s.iotlb.current ∧
      match dataPath s ctx f.req.kind f.req.iova with
      | .failed e => t.progressOf f.id = some (.translating ctx (.report e.1 e.2))
      | .msi gpa => ∃ data size, f.req.kind = .write data size ∧
          t.progressOf f.id = some (.translating ctx
            (if s.params.msiIfnLimit ≤ (msiIfn ctx gpa).toNat then .report .msiPteLoadFault 0
             else .msiPte gpa (msiIfn ctx gpa) data size))
      | .translated gpa spa m p =>
        if msiMatch ctx gpa = true then
          t.progressOf f.id = some (.ending (.ok spa m p))
        else t.progressOf f.id = some (.translating ctx (.tlbRoom spa m p))

/-- The spec's own inference 70_reset_and_hazards.md R491 from the rules of the walks: in a sound state every request in flight ends within 64 of its own steps, whatever
memory holds, and its result is the last thing it sends out. (How the request's work is cut into steps is log
entry 2.) -/
def Obligations.RequestsEndInBoundedSteps : Prop :=
  ∀ (s : State) (f : InFlight), s.Inv → s.lookupInflight f.id = some f →
    ∃ n t r, n < 64 ∧ runAlone f.id n s = .next t ∧ t.lookupInflight f.id = none ∧ t.trace.head? = some (.result f.id r)

/-- 41_translation.md R252, R255, R281, R282: in a sound state, a request that comes to an address as its result, and
one that returns an address, has the permission it asked for. (How the request's work is cut into steps is log
entry 2.) -/
def Obligations.ResultCoversTheRequest : Prop :=
  ∀ (s t : State) (f : InFlight) (addr m : Word) (perm : Perm), s.Inv → s.lookupInflight f.id = some f →
    advance f.id s = .next t →
    (t.progressOf f.id = some (.ending (.ok addr m perm)) → perm.covers f.req.kind = true) ∧
    (∀ l, t.lookupInflight f.id = none → t.trace = .result f.id (.ok addr m perm) :: l → perm.covers f.req.kind = true)

/-! ## MSI interception -/

/-- 42_msi.md R320: the address test, bit by bit; a context of the base format never passes it. -/
def Obligations.MsiFilterBits : Prop :=
  (∀ (c : Ctx) (gpa : Word), msiMatch c gpa = true ↔
    c.msiptp.extractLsb' 60 4 = 1 ∧
    ∀ i, i < 52 → c.msiAddrMask.getLsbD i = false → gpa.getLsbD (i + 12) = c.msiAddrPattern.getLsbD i) ∧
  ∀ (p : Params) (r : Request) (ds : List Word) (gpa : Word), p.cap.msiFlat = false → msiMatch (deviceCtx p r ds) gpa = false

/-- 00_scope.md R26: `extract` packs the bits of `v` at the 1 positions of `m`, in order, into the low bits. -/
def Obligations.ExtractPacksMaskedBits : Prop :=
  ∀ v m : Word,
    (∀ i, i < 64 → m.getLsbD i = true →
      (extractBits v m).getLsbD ((List.range i).filter fun j => m.getLsbD j).length = v.getLsbD i) ∧
    ∀ k, ((List.range 64).filter fun j => m.getLsbD j).length ≤ k → (extractBits v m).getLsbD k = false

/-- 42_msi.md R322 to R335: the number of the interrupt file and the address of its entry; the step that reads the
entry: no event, one read of its 16 bytes, and the request goes where the entry leads, with the identity the data's low
bytes give (R332; log entry 17); and what an MSI page-table entry leads to. (Dwords read early are log
entry 5; that the read and the checks are one step is log entry 2.) -/
def Obligations.MsiEntryChecks : Prop :=
  (∀ (ctx : Ctx) (gpa ifn data : Word) (size : AccessSize),
    msiIfn ctx gpa = extractBits (0#12 ++ gpa.extractLsb' 12 52) (0#12 ++ ctx.msiAddrMask.extractLsb' 0 52) ∧
    msiPteAddr ctx ifn = (0#8 ++ ctx.msiptp.extractLsb' 0 44 ++ 0#12) + ifn * 16 ∧
    writeValue data size = match size with
      | .b1 => data &&& 0xFF
      | .b2 => data &&& 0xFFFF
      | .b4 => data &&& 0xFFFFFFFF
      | .b8 => data) ∧
  (∀ (f : InFlight) (ctx : Ctx) (gpa ifn data : Word) (size : AccessSize) (s : State),
    f.progress = .translating ctx (.msiPte gpa ifn data size) →
    let a := msiPteAddr ctx ifn
    let r := s.readDwords f.latches a 2
    requestStep f s = .next ((s.emit (.access .read a 16 r.isSome)).goOn f (.translating ctx
      (match msiEntry s.params.cap (writeValue data size) gpa r with
        | .fail cause => .report cause 0
        | .forward target => .msiForward target data size
        | .mrif pa id m1 => .mrifPendingRead pa id m1)))) ∧
  ∀ (cap : Cap) (id gpa : Word),
    msiEntry cap id gpa none = .fail .msiPteLoadFault ∧
    ∀ m0 m1 : Word,
      let o := msiEntry cap id gpa (some [m0, m1])
      (m0.getLsbD 0 = false ∨ m0.getLsbD 63 = true → o = .fail .msiPteInvalid) ∧
      (m0.getLsbD 0 = true → m0.getLsbD 63 = false →
        (m0.extractLsb' 1 2 = 3 → o = .forward (0#8 ++ m0.extractLsb' 10 44 ++ gpa.extractLsb' 0 12)) ∧
        (m0.extractLsb' 1 2 = 1 → cap.msiMrif = true →
          o = if gpa.toNat % 4 ≠ 0 ∨ 2047 < id.toNat then .fail .msiPteMisconfigured
              else .mrif ((0#8 ++ m0.extractLsb' 7 47 ++ 0#9) + BitVec.ofNat 64 (id.toNat / 64 * 16)) id m1) ∧
        (m0.extractLsb' 1 2 ≠ 3 → (m0.extractLsb' 1 2 ≠ 1 ∨ cap.msiMrif = false) → o = .fail .msiPteMisconfigured))

/-- 42_msi.md R330, R331: in basic mode the device's write, of its size and data, is made once at the target, and only
there; a failed write is 273 and leaves memory as it was (the spec's own inference R341, log entry 22). (That the result
is returned in a later step is log entry 2.) -/
def Obligations.BasicModeForwardsTheWrite : Prop :=
  ∀ (f : InFlight) (ctx : Ctx) (target data : Word) (size : AccessSize) (s : State),
    f.progress = .translating ctx (.msiForward target data size) → s.lookupInflight f.id = some f → s.mem.WF →
    ∃ t, requestStep f s = .next t ∧ t.iotlb = s.iotlb ∧
      (∀ x : Word, ¬ inBytes target size.bytes x → t.mem.at x = s.mem.at x) ∧
      if accessFails s.failing .write target size.bytes = true then
        t.mem = s.mem ∧ t.progressOf f.id = some (.translating ctx (.report .msiWriteFault 0)) ∧
        t.trace = .access .write target size.bytes false :: s.trace
      else
        (∀ k, k < size.bytes → t.mem.at (target + BitVec.ofNat 64 k) = data.extractLsb' (8 * k) 8) ∧
        t.progressOf f.id = some (.ending .msiDone) ∧ t.trace = .access .write target size.bytes true :: s.trace

/-- 42_msi.md R335: the pending dword is read, and written back with the identity's bit set and its other bits as they
were; a failure of either is 264. The read and the write are two steps (R98; log entry 2); here nobody moves between them.
(That a failed write stores nothing is log entry 22.) -/
def Obligations.MrifPendingBit : Prop :=
  ∀ (f : InFlight) (ctx : Ctx) (pa id m1 : Word) (s : State),
    f.progress = .translating ctx (.mrifPendingRead pa id m1) → s.lookupInflight f.id = some f → s.mem.WF →
    ∃ u, runAlone f.id 1 s = .next u ∧ u.mem = s.mem ∧
      (accessFails s.failing .read pa 8 = true → u.progressOf f.id = some (.translating ctx (.report .mrifAccessFault 0))) ∧
      (accessFails s.failing .read pa 8 = false → ∃ t, runAlone f.id 1 u = .next t ∧
        (∀ x : Word, ¬ inBytes pa 8 x → t.mem.at x = s.mem.at x) ∧
        if accessFails s.failing .write pa 8 = true then
          t.mem = s.mem ∧ t.progressOf f.id = some (.translating ctx (.report .mrifAccessFault 0))
        else
          t.mem.dword pa = s.mem.dword pa ||| BitVec.ofNat 64 (2 ^ (id.toNat % 64)) ∧
          t.progressOf f.id = some (.translating ctx (.mrifEnable pa id m1)))

/-- 42_msi.md R336, R337: without the enable bit the path ends; with it the notice, the 11-bit identifier as four
bytes, is written to the notice page and nowhere else; a failed read is 264, a failed notice 273. (That a failed write
stores nothing is log entry 22; that the result is returned in a later step is log entry 2.) -/
def Obligations.MrifEnableAndNotice : Prop :=
  ∀ (f : InFlight) (ctx : Ctx) (s : State), s.lookupInflight f.id = some f → s.mem.WF →
    (∀ pa id m1 : Word, f.progress = .translating ctx (.mrifEnable pa id m1) →
      ∃ t, requestStep f s = .next t ∧ t.mem = s.mem ∧
        if accessFails s.failing .read (pa + 8) 8 = true then
          t.progressOf f.id = some (.translating ctx (.report .mrifAccessFault 0))
        else if (s.mem.dword (pa + 8)).getLsbD (id.toNat % 64) = true then
          t.progressOf f.id = some (.translating ctx (.mrifNotice m1))
        else t.progressOf f.id = some (.ending .msiDone)) ∧
    (∀ m1 : Word, f.progress = .translating ctx (.mrifNotice m1) →
      let a : Word := 0#8 ++ m1.extractLsb' 10 44 ++ 0#12
      ∃ t, requestStep f s = .next t ∧ (∀ x : Word, ¬ inBytes a 4 x → t.mem.at x = s.mem.at x) ∧
        if accessFails s.failing .write a 4 = true then
          t.mem = s.mem ∧ t.progressOf f.id = some (.translating ctx (.report .msiWriteFault 0))
        else
          t.mem.word32 a = (0#21 ++ (m1.extractLsb' 60 1 ++ m1.extractLsb' 0 10)) ∧
          t.progressOf f.id = some (.ending .msiDone))

/-! ## Records and their queues -/

/-- 60_exceptions.md R431, R432, R445: the enqueue contract; fault records, of 32 bytes, go to the fault queue with
FQ_INT, page requests, of 16 bytes, to the page-request queue with PQ_INT. (What a failed write leaves in memory is not
said here: log entry 22.) -/
def Obligations.EnqueueContract : Prop :=
  (∀ (rec : List Word) (s : State),
    s.enqueueFq rec = { (enqueue s.fq .fq rec s).2 with fq := (enqueue s.fq .fq rec s).1 } ∧
    s.enqueuePq rec = { (enqueue s.pq .pq rec s).2 with pq := (enqueue s.pq .pq rec s).1 }) ∧
  (∀ (cause : Cause) (r : Request) (gpa2 : Word),
    (leDwords (faultRecord cause r gpa2)).length = 32 ∧ (leDwords (pageRequest r)).length = 16) ∧
  ∀ (q : RecQueue) (int : IntReq) (rec : List Word) (s : State), ∃ m : Memory,
    let n := 8 * rec.length
    let a := q.base + BitVec.ofNat 64 (q.tail * n)
    enqueue q int rec s =
      (if q.active = false ∨ q.memFault = true ∨ q.overflow = true then (q, s)
      else if (q.tail + 1) % q.size = q.head then ({ q with overflow := true }, s)
      else if accessFails s.failing .write a n = true then
        ({ q with memFault := true }, { s with mem := m, trace := .access .write a n false :: s.trace })
      else
        ({ q with tail := (q.tail + 1) % q.size, ip := true },
         { s with
           mem := s.mem.store a (leDwords rec)
           trace := (if q.ip = true then [] else [.signal int]) ++ .access .write a n true :: s.trace }))

/-- 60_exceptions.md R433: over any sequence of enqueues on an active, unflagged queue, with no dequeue between them,
after which the memory-fault bit is still clear, the overflow bit is set exactly if there are more records than free entries, of which a ring has at
most its size less one; and the tail has moved by the number of records that found room. -/
def Obligations.OverflowExactlyWhenFull : Prop :=
  ∀ (q : RecQueue) (int : IntReq) (recs : List (List Word)) (s : State),
    q.active = true → q.overflow = false → q.head < q.size → q.tail < q.size →
    let r := (enqueueAll int recs (q, s)).1
    r.memFault = false →
    q.free ≤ q.size - 1 ∧
    (r.overflow = true ↔ q.free < recs.length) ∧ r.head = q.head ∧
    r.tail = (q.tail + min q.free recs.length) % q.size

/-- 60_exceptions.md R410, R421 to R423, R426, 30_encoding.md R150, R152: the code of every cause, and the words of a
fault record and of a page request, as the spec's formulas give them. -/
def Obligations.RecordLayouts : Prop :=
  ∀ (cause : Cause) (r : Request) (gpa2 : Word),
    let pv : Word := if r.pid = 0 then 0 else 1
    let code : Word := match cause with
      | .instrAccessFault => 1 | .readAccessFault => 5 | .writeAccessFault => 7
      | .instrPageFault => 12 | .readPageFault => 13 | .writePageFault => 15
      | .instrGuestPageFault => 20 | .readGuestPageFault => 21 | .writeGuestPageFault => 23
      | .allInboundDisallowed => 256 | .ddtLoadFault => 257 | .ddtInvalid => 258 | .ddtMisconfigured => 259
      | .transactionTypeDisallowed => 260 | .msiPteLoadFault => 261 | .msiPteInvalid => 262 | .msiPteMisconfigured => 263
      | .mrifAccessFault => 264 | .pdtLoadFault => 265 | .pdtInvalid => 266 | .pdtMisconfigured => 267
      | .ddtCorrupt => 268 | .pdtCorrupt => 269 | .msiPtCorrupt => 270 | .mrifCorrupt => 271
      | .internalDataPathError => 272 | .msiWriteFault => 273 | .ptCorrupt => 274
    let ttyp : Word := match r.kind with | .read => 2 | .write _ _ => 3 | .exec => 1 | .ats => 8
    faultRecord cause r gpa2 =
      [code ||| (r.pid.setWidth 64 <<< 12) ||| (pv <<< 32) ||| (0 <<< 33) ||| (ttyp <<< 34) |||
          (r.devid.setWidth 64 <<< 40),
        0, r.iova, if code = 21 ∨ code = 23 then gpa2 else 0] ∧
    pageRequest r =
      [(r.pid.setWidth 64 <<< 12) ||| (pv <<< 32) ||| (0 <<< 33) ||| (0 <<< 34) ||| (r.devid.setWidth 64 <<< 40),
        (r.iova &&& ~~~ (0xFFF : Word)) ||| (1 <<< 0) ||| (1 <<< 1) ||| (1 <<< 2)]

/-! ## Reset, invariants and the interface -/

/-- 70_reset_and_hazards.md R470, 10_state.md R35, R69, R70: the values the spec gives for reset, for every choice of
the parameters, and that realize brings them back. (That realize may come while requests are in flight, which are then
gone, and in the middle of a drain or with actions pending, which are dropped, is log entry 30.) -/
def Obligations.ResetState : Prop :=
  ∀ s : State,
    (s = State.reset ∨ (∃ p, s = State.ofParams p) ∨ ∃ u, perform .realize u = .next s) →
    (s.ddtp.mode = match s.params.resetDdtpMode with | .off => .off | .bare => .bare) ∧ s.ddtp.ppn = 0 ∧
    s.ctxCache = { current := { number := 0, entries := [] }, pinned := [] } ∧
    s.iotlb = { current := { number := 0, entries := [] }, pinned := [] } ∧ s.inflight = [] ∧
    s.cq.state = .disabled ∧ s.cq.cmdIll = false ∧ s.cq.cmdMf = false ∧ s.cq.fenceWIp = false ∧
    s.fq.active = false ∧ s.fq.overflow = false ∧ s.fq.memFault = false ∧ s.fq.ip = false ∧
    s.pq.active = false ∧ s.pq.overflow = false ∧ s.pq.memFault = false ∧ s.pq.ip = false ∧ s.threadBusy = false

/-- The spec's own inference 70_reset_and_hazards.md R473 from the reset state of R470: the first request after reset: with Off it ends with 256 and no record is written;
with Bare a READ, WRITE or EXEC passes through and an ATS request ends with 260. -/
def Obligations.FirstRequestAfterReset : Prop :=
  ∀ (p : Params) (devid pid : Nat) (iova : Word) (kind : ReqKind) (s : State), 1 ≤ p.ctxCacheCapacity →
    devid < 2 ^ 24 → pid < 2 ^ 20 → perform (.request devid pid iova kind) (State.ofParams p) = .next s →
    ∃ n t, runAlone 0 n s = .next t ∧ t.inflight = [] ∧ t.mem = [] ∧ t.iotlb.current.entries = [] ∧
      t.trace.head? = some (.result 0
        (match p.resetDdtpMode with
          | .off => .fault .allInboundDisallowed
          | .bare => if kind = .ats then .fault .transactionTypeDisallowed else .ok iova 0xFFF { r := true, w := true })) ∧
      ∀ a b c d, Output.access a b c d ∉ t.trace

/-- The state after reset is sound, for every choice of the parameters. (The ring sizes and indices and the empty memory
it has are the model's choice: log entries 3 and 6.) -/
def Obligations.ResetIsSound : Prop := State.reset.Inv ∧ ∀ p : Params, (State.ofParams p).Inv

/-- Every step keeps the state sound: memory keeps its canonical form; each cache key has at most one entry (10_state.md
R39, R43); every cached context and every context in use has supported modes (41_translation.md R271); the ring
indices stay below their sizes, which stay powers of two (10_state.md R60); the requests in flight have different
numbers; and nothing is ever sent out that is never raised (60_exceptions.md R411, R440). -/
def Obligations.StepKeepsSoundness : Prop :=
  ∀ s t : State, s.Inv → step s = .next t → t.Inv

/-- 41_translation.md R271: in a sound state no step faults: the checks of a context guarantee that a walk meets a
supported mode. The one refusal is the debug action (log entry 11). -/
def Obligations.SoundStatesNeverFault : Prop :=
  ∀ s : State, s.Inv → (∃ t, step s = .next t) ∨ (step s = .refused .debugTranslation ∧ s.pending.debug = true)

/-- 10_state.md R36: no step changes the instance's parameters. -/
def Obligations.ParametersAreConstant : Prop :=
  ∀ s t : State, step s = .next t → t.params = s.params

/-- 00_scope.md R10, R11: a request with a wider identifier is refused at the interface, and one that fits is in flight
with the identifiers it carries. (What refusing leaves is log entry 8.) -/
def Obligations.WideIdentifiersRefused : Prop :=
  ∀ (devid pid : Nat) (iova : Word) (kind : ReqKind) (s t : State), perform (.request devid pid iova kind) s = .next t →
    (2 ^ 24 ≤ devid ∨ 2 ^ 20 ≤ pid → ∃ why, t = { s with trace := .rejected why :: s.trace }) ∧
    (devid < 2 ^ 24 → pid < 2 ^ 20 → t.trace = s.trace ∧ ∃ f : InFlight, t.inflight = s.inflight ++ [f] ∧
      f.req.devid.toNat = devid ∧ f.req.pid.toNat = pid ∧ f.req.iova = iova ∧ f.req.kind = kind)
end

