-- ==== Sys2Proof/Laws/Memory.lean ====
section
/-! SUPPORT. Laws of memory: reading after writing, and the canonical form that every memory operation keeps
(10_state.md R67, 00_scope.md R24). -/

namespace Sys2Proof.Machine

/-! ## The canonical form -/

@[simp] theorem Memory.WF_nil : Memory.WF [] := ⟨List.Pairwise.nil, by simp⟩

theorem Memory.WF_tail {c : Host.Cell} {m : Memory} (h : Memory.WF (c :: m)) : Memory.WF m :=
  ⟨(List.pairwise_cons.1 h.1).2, fun d hd => h.2 d (List.mem_cons_of_mem c hd)⟩

/-- Every address a byte write leaves in the list was there before or is the one written. -/
theorem Memory.mem_setByte {m : Memory} {k : Nat} {v : Byte} {c : Host.Cell} (h : c ∈ Memory.setByte m k v) :
    c ∈ m ∨ (c = (k, v) ∧ v ≠ unlistedByte) := by
  induction m with
  | nil =>
    simp only [Memory.setByte] at h
    split at h
    · cases h
    · next hv => exact .inr ⟨by simpa using h, hv⟩
  | cons x m ih =>
    obtain ⟨a, b⟩ := x
    simp only [Memory.setByte] at h
    split at h
    · split at h
      · exact .inl h
      · next hv =>
        rcases List.mem_cons.1 h with h | h
        · exact .inr ⟨h, hv⟩
        · exact .inl h
    · split at h
      · split at h
        · exact .inl (List.mem_cons_of_mem _ h)
        · next hv =>
          rcases List.mem_cons.1 h with h | h
          · exact .inr ⟨h, hv⟩
          · exact .inl (List.mem_cons_of_mem _ h)
      · rcases List.mem_cons.1 h with h | h
        · exact .inl (h ▸ List.mem_cons_self)
        · rcases ih h with h | h
          · exact .inl (List.mem_cons_of_mem _ h)
          · exact .inr h

/-- A byte write keeps the canonical form. -/
theorem Memory.WF_setByte {m : Memory} (h : m.WF) {k : Nat} (hk : k < 2 ^ 64) (v : Byte) : (m.setByte k v).WF := by
  refine ⟨?_, fun c hc => ?_⟩
  · have hp := h.1
    clear h
    induction m with
    | nil => simp only [Memory.setByte]; split <;> simp
    | cons x m ih =>
      obtain ⟨a, b⟩ := x
      have hx := List.pairwise_cons.1 hp
      simp only [Memory.setByte]
      split
      · next hka =>
        split
        · exact hp
        · refine List.pairwise_cons.2 ⟨fun d hd => ?_, hp⟩
          rcases List.mem_cons.1 hd with rfl | hd
          · exact hka
          · exact Nat.lt_trans hka (hx.1 d hd)
      · next hka =>
        split
        · next hke =>
          subst hke
          split
          · exact hx.2
          · exact List.pairwise_cons.2 ⟨hx.1, hx.2⟩
        · next hne =>
          refine List.pairwise_cons.2 ⟨fun d hd => ?_, ih hx.2⟩
          rcases Memory.mem_setByte hd with hd | ⟨rfl, -⟩
          · exact hx.1 d hd
          · show a < k; omega
  · rcases Memory.mem_setByte hc with hc | ⟨rfl, hv⟩
    · exact h.2 c hc
    · exact ⟨hk, hv⟩

/-- A store keeps the canonical form. -/
theorem Memory.WF_store {m : Memory} (h : m.WF) (a : Word) (bs : List Byte) : (m.store a bs).WF := by
  induction bs generalizing m a with
  | nil => exact h
  | cons b bs ih => exact ih (Memory.WF_setByte h a.isLt b) (a + 1)

/-! ## Reading after writing -/

/-- A canonical memory whose addresses all lie above `k` lists nothing at `k`. -/
theorem Memory.byte_of_lt {m : Memory} {k : Nat} (h : ∀ c ∈ m, k < c.1) : m.byte k = unlistedByte := by
  induction m with
  | nil => rfl
  | cons x m ih =>
    obtain ⟨a, b⟩ := x
    have ha : k < a := h (a, b) List.mem_cons_self
    simp only [Memory.byte]
    rw [if_neg (by omega)]
    exact ih fun c hc => h c (List.mem_cons_of_mem _ hc)

/-- What a byte reads as after a byte write: the value written at its address, what it was elsewhere. -/
theorem Memory.byte_setByte {m : Memory} (h : m.WF) (k : Nat) (v : Byte) (j : Nat) :
    (m.setByte k v).byte j = if j = k then v else m.byte j := by
  have hp := h.1
  clear h
  induction m with
  | nil =>
    simp only [Memory.setByte]
    by_cases hv : v = unlistedByte <;> by_cases hj : k = j <;> simp [Memory.byte, hv, hj, eq_comm (a := j)]
  | cons x m ih =>
    obtain ⟨a, b⟩ := x
    have hx := List.pairwise_cons.1 hp
    simp only [Memory.setByte]
    split
    · next hka =>
      have hlow : ∀ c ∈ (a, b) :: m, k < c.1 := by
        intro c hc
        rcases List.mem_cons.1 hc with rfl | hc
        · exact hka
        · exact Nat.lt_trans hka (hx.1 c hc)
      split
      · next hv =>
        by_cases hj : j = k
        · subst hj; rw [if_pos rfl, hv]; exact Memory.byte_of_lt hlow
        · rw [if_neg hj]
      · by_cases hj : j = k
        · subst hj; simp [Memory.byte]
        · rw [if_neg hj]
          show (if k = j then v else Memory.byte ((a, b) :: m) j) = _
          rw [if_neg (Ne.symm hj)]
    · split
      · next hke =>
        subst hke
        split
        · next hv =>
          by_cases hj : j = k
          · subst hj; rw [if_pos rfl, hv]; exact Memory.byte_of_lt hx.1
          · rw [if_neg hj]; simp only [Memory.byte]; rw [if_neg (Ne.symm hj)]
        · by_cases hj : j = k
          · subst hj; simp [Memory.byte]
          · rw [if_neg hj]; simp only [Memory.byte]; rw [if_neg (Ne.symm hj), if_neg (Ne.symm hj)]
      · next hne =>
        simp only [Memory.byte]
        by_cases ha : a = j
        · rw [if_pos ha, if_pos ha, if_neg (by omega)]
        · rw [if_neg ha, if_neg ha, ih hx.2]

/-- A byte outside the bytes stored reads as before. -/
theorem Memory.at_store_outside {m : Memory} (h : m.WF) (a : Word) (bs : List Byte) (x : Word)
    (hx : ¬ inBytes a bs.length x) : (m.store a bs).at x = m.at x := by
  induction bs generalizing m a with
  | nil => rfl
  | cons b bs ih =>
    have hxa : x ≠ a := by
      rintro rfl
      exact hx (by simp [inBytes])
    have hout : ¬ inBytes (a + 1) bs.length x := by
      intro hin
      apply hx
      have hne : x - a ≠ 0 := fun h0 => hxa (by bv_omega)
      simp only [inBytes, List.length_cons] at hin ⊢
      bv_omega
    have hne : x.toNat ≠ a.toNat := fun h0 => hxa (BitVec.eq_of_toNat_eq h0)
    calc ((m.setByte a.toNat b).store (a + 1) bs).at x
        = (m.setByte a.toNat b).at x := ih (Memory.WF_setByte h a.isLt b) (a + 1) hout
      _ = m.at x := by simp only [Memory.at]; rw [Memory.byte_setByte h, if_neg hne]

/-- Byte `i` of what was stored reads back, for a store of at most 2^64 bytes. -/
theorem Memory.at_store_inside {m : Memory} (h : m.WF) (a : Word) (bs : List Byte) (hlen : bs.length ≤ 2 ^ 64)
    (i : Nat) (hi : i < bs.length) : (m.store a bs).at (a + BitVec.ofNat 64 i) = bs[i] := by
  induction bs generalizing m a i with
  | nil => simp at hi
  | cons b bs ih =>
    have hwf := Memory.WF_setByte h a.isLt b
    simp only [List.length_cons] at hlen hi
    cases i with
    | zero =>
      have hout : ¬ inBytes (a + 1) bs.length a := by
        simp only [inBytes]
        have : (a - (a + 1)).toNat = 2 ^ 64 - 1 := by bv_omega
        omega
      show ((m.setByte a.toNat b).store (a + 1) bs).at (a + BitVec.ofNat 64 0) = _
      rw [show a + BitVec.ofNat 64 0 = a by simp, Memory.at_store_outside hwf (a + 1) bs a hout]
      simp only [Memory.at]
      rw [Memory.byte_setByte h, if_pos rfl]; rfl
    | succ i =>
      show ((m.setByte a.toNat b).store (a + 1) bs).at (a + BitVec.ofNat 64 (i + 1)) = _
      have e : a + BitVec.ofNat 64 (i + 1) = (a + 1) + BitVec.ofNat 64 i := by
        apply BitVec.eq_of_toNat_eq; simp; omega
      rw [e, ih hwf (a + 1) (by omega) i (by omega)]; rfl

/-- The memory of every reset state is in canonical form. -/
theorem State.reset_mem_WF : State.reset.mem.WF ∧ ∀ p : Params, (State.ofParams p).mem.WF :=
  ⟨Memory.WF_nil, fun _ => Memory.WF_nil⟩

end Sys2Proof.Machine
end

