-- ==== Sys2Proof/Laws/State.lean ====
section
/-! SUPPORT. The field laws: what each named state update of Ops.lean and Thread.lean leaves in each field of
`State`. All true by unfolding; no later proof needs to look into a record update. -/

namespace Sys2Proof.Machine

variable (s : State)

/-! ## `State.emit` -/

@[simp] theorem State.emit_params (o : Output) : (s.emit o).params = s.params := rfl
@[simp] theorem State.emit_mem (o : Output) : (s.emit o).mem = s.mem := rfl
@[simp] theorem State.emit_failing (o : Output) : (s.emit o).failing = s.failing := rfl
@[simp] theorem State.emit_ddtp (o : Output) : (s.emit o).ddtp = s.ddtp := rfl
@[simp] theorem State.emit_ctxCache (o : Output) : (s.emit o).ctxCache = s.ctxCache := rfl
@[simp] theorem State.emit_iotlb (o : Output) : (s.emit o).iotlb = s.iotlb := rfl
@[simp] theorem State.emit_cq (o : Output) : (s.emit o).cq = s.cq := rfl
@[simp] theorem State.emit_fq (o : Output) : (s.emit o).fq = s.fq := rfl
@[simp] theorem State.emit_pq (o : Output) : (s.emit o).pq = s.pq := rfl
@[simp] theorem State.emit_pending (o : Output) : (s.emit o).pending = s.pending := rfl
@[simp] theorem State.emit_thread (o : Output) : (s.emit o).thread = s.thread := rfl
@[simp] theorem State.emit_cmdLatches (o : Output) : (s.emit o).cmdLatches = s.cmdLatches := rfl
@[simp] theorem State.emit_inflight (o : Output) : (s.emit o).inflight = s.inflight := rfl
@[simp] theorem State.emit_nextId (o : Output) : (s.emit o).nextId = s.nextId := rfl
@[simp] theorem State.emit_schedule (o : Output) : (s.emit o).schedule = s.schedule := rfl
@[simp] theorem State.emit_trace (o : Output) : (s.emit o).trace = o :: s.trace := rfl

/-! ## `State.signal` -/

@[simp] theorem State.signal_params (i : IntReq) : (s.signal i).params = s.params := rfl
@[simp] theorem State.signal_mem (i : IntReq) : (s.signal i).mem = s.mem := rfl
@[simp] theorem State.signal_failing (i : IntReq) : (s.signal i).failing = s.failing := rfl
@[simp] theorem State.signal_ddtp (i : IntReq) : (s.signal i).ddtp = s.ddtp := rfl
@[simp] theorem State.signal_ctxCache (i : IntReq) : (s.signal i).ctxCache = s.ctxCache := rfl
@[simp] theorem State.signal_iotlb (i : IntReq) : (s.signal i).iotlb = s.iotlb := rfl
@[simp] theorem State.signal_cq (i : IntReq) : (s.signal i).cq = s.cq := rfl
@[simp] theorem State.signal_fq (i : IntReq) : (s.signal i).fq = s.fq := rfl
@[simp] theorem State.signal_pq (i : IntReq) : (s.signal i).pq = s.pq := rfl
@[simp] theorem State.signal_pending (i : IntReq) : (s.signal i).pending = s.pending := rfl
@[simp] theorem State.signal_thread (i : IntReq) : (s.signal i).thread = s.thread := rfl
@[simp] theorem State.signal_cmdLatches (i : IntReq) : (s.signal i).cmdLatches = s.cmdLatches := rfl
@[simp] theorem State.signal_inflight (i : IntReq) : (s.signal i).inflight = s.inflight := rfl
@[simp] theorem State.signal_nextId (i : IntReq) : (s.signal i).nextId = s.nextId := rfl
@[simp] theorem State.signal_schedule (i : IntReq) : (s.signal i).schedule = s.schedule := rfl
@[simp] theorem State.signal_trace (i : IntReq) : (s.signal i).trace = .signal i :: s.trace := rfl

/-! ## `State.logAccess` -/

@[simp] theorem State.logAccess_params (dir : Dir) (a : Word) (n : Nat) (ok : Bool) :
    (s.logAccess dir a n ok).params = s.params := rfl
@[simp] theorem State.logAccess_mem (dir : Dir) (a : Word) (n : Nat) (ok : Bool) : (s.logAccess dir a n ok).mem = s.mem := rfl
@[simp] theorem State.logAccess_failing (dir : Dir) (a : Word) (n : Nat) (ok : Bool) :
    (s.logAccess dir a n ok).failing = s.failing := rfl
@[simp] theorem State.logAccess_ddtp (dir : Dir) (a : Word) (n : Nat) (ok : Bool) : (s.logAccess dir a n ok).ddtp = s.ddtp := rfl
@[simp] theorem State.logAccess_ctxCache (dir : Dir) (a : Word) (n : Nat) (ok : Bool) :
    (s.logAccess dir a n ok).ctxCache = s.ctxCache := rfl
@[simp] theorem State.logAccess_iotlb (dir : Dir) (a : Word) (n : Nat) (ok : Bool) :
    (s.logAccess dir a n ok).iotlb = s.iotlb := rfl
@[simp] theorem State.logAccess_cq (dir : Dir) (a : Word) (n : Nat) (ok : Bool) : (s.logAccess dir a n ok).cq = s.cq := rfl
@[simp] theorem State.logAccess_fq (dir : Dir) (a : Word) (n : Nat) (ok : Bool) : (s.logAccess dir a n ok).fq = s.fq := rfl
@[simp] theorem State.logAccess_pq (dir : Dir) (a : Word) (n : Nat) (ok : Bool) : (s.logAccess dir a n ok).pq = s.pq := rfl
@[simp] theorem State.logAccess_pending (dir : Dir) (a : Word) (n : Nat) (ok : Bool) :
    (s.logAccess dir a n ok).pending = s.pending := rfl
@[simp] theorem State.logAccess_thread (dir : Dir) (a : Word) (n : Nat) (ok : Bool) :
    (s.logAccess dir a n ok).thread = s.thread := rfl
@[simp] theorem State.logAccess_cmdLatches (dir : Dir) (a : Word) (n : Nat) (ok : Bool) :
    (s.logAccess dir a n ok).cmdLatches = s.cmdLatches := rfl
@[simp] theorem State.logAccess_inflight (dir : Dir) (a : Word) (n : Nat) (ok : Bool) :
    (s.logAccess dir a n ok).inflight = s.inflight := rfl
@[simp] theorem State.logAccess_nextId (dir : Dir) (a : Word) (n : Nat) (ok : Bool) :
    (s.logAccess dir a n ok).nextId = s.nextId := rfl
@[simp] theorem State.logAccess_schedule (dir : Dir) (a : Word) (n : Nat) (ok : Bool) :
    (s.logAccess dir a n ok).schedule = s.schedule := rfl
@[simp] theorem State.logAccess_trace (dir : Dir) (a : Word) (n : Nat) (ok : Bool) :
    (s.logAccess dir a n ok).trace = .access dir a n ok :: s.trace := rfl

/-! ## `State.event` -/

@[simp] theorem State.event_params (f : InFlight) (e : PerfEvent) : (s.event f e).params = s.params := rfl
@[simp] theorem State.event_mem (f : InFlight) (e : PerfEvent) : (s.event f e).mem = s.mem := rfl
@[simp] theorem State.event_failing (f : InFlight) (e : PerfEvent) : (s.event f e).failing = s.failing := rfl
@[simp] theorem State.event_ddtp (f : InFlight) (e : PerfEvent) : (s.event f e).ddtp = s.ddtp := rfl
@[simp] theorem State.event_ctxCache (f : InFlight) (e : PerfEvent) : (s.event f e).ctxCache = s.ctxCache := rfl
@[simp] theorem State.event_iotlb (f : InFlight) (e : PerfEvent) : (s.event f e).iotlb = s.iotlb := rfl
@[simp] theorem State.event_cq (f : InFlight) (e : PerfEvent) : (s.event f e).cq = s.cq := rfl
@[simp] theorem State.event_fq (f : InFlight) (e : PerfEvent) : (s.event f e).fq = s.fq := rfl
@[simp] theorem State.event_pq (f : InFlight) (e : PerfEvent) : (s.event f e).pq = s.pq := rfl
@[simp] theorem State.event_pending (f : InFlight) (e : PerfEvent) : (s.event f e).pending = s.pending := rfl
@[simp] theorem State.event_thread (f : InFlight) (e : PerfEvent) : (s.event f e).thread = s.thread := rfl
@[simp] theorem State.event_cmdLatches (f : InFlight) (e : PerfEvent) : (s.event f e).cmdLatches = s.cmdLatches := rfl
@[simp] theorem State.event_inflight (f : InFlight) (e : PerfEvent) : (s.event f e).inflight = s.inflight := rfl
@[simp] theorem State.event_nextId (f : InFlight) (e : PerfEvent) : (s.event f e).nextId = s.nextId := rfl
@[simp] theorem State.event_schedule (f : InFlight) (e : PerfEvent) : (s.event f e).schedule = s.schedule := rfl
@[simp] theorem State.event_trace (f : InFlight) (e : PerfEvent) :
    (s.event f e).trace = .event e f.req.devid f.req.pid f.tags.1 f.tags.2 :: s.trace := rfl

/-! ## `State.insertCtx` -/

@[simp] theorem State.insertCtx_params (ctx : Ctx) : (s.insertCtx ctx).params = s.params := rfl
@[simp] theorem State.insertCtx_mem (ctx : Ctx) : (s.insertCtx ctx).mem = s.mem := rfl
@[simp] theorem State.insertCtx_failing (ctx : Ctx) : (s.insertCtx ctx).failing = s.failing := rfl
@[simp] theorem State.insertCtx_ddtp (ctx : Ctx) : (s.insertCtx ctx).ddtp = s.ddtp := rfl
@[simp] theorem State.insertCtx_ctxCache (ctx : Ctx) :
    (s.insertCtx ctx).ctxCache = s.ctxCache.setEntries (upsert (CtxEntry.hasKey ctx.devid ctx.pid) { ctx, valid := true } s.ctxCache.current.entries) := rfl
@[simp] theorem State.insertCtx_iotlb (ctx : Ctx) : (s.insertCtx ctx).iotlb = s.iotlb := rfl
@[simp] theorem State.insertCtx_cq (ctx : Ctx) : (s.insertCtx ctx).cq = s.cq := rfl
@[simp] theorem State.insertCtx_fq (ctx : Ctx) : (s.insertCtx ctx).fq = s.fq := rfl
@[simp] theorem State.insertCtx_pq (ctx : Ctx) : (s.insertCtx ctx).pq = s.pq := rfl
@[simp] theorem State.insertCtx_pending (ctx : Ctx) : (s.insertCtx ctx).pending = s.pending := rfl
@[simp] theorem State.insertCtx_thread (ctx : Ctx) : (s.insertCtx ctx).thread = s.thread := rfl
@[simp] theorem State.insertCtx_cmdLatches (ctx : Ctx) : (s.insertCtx ctx).cmdLatches = s.cmdLatches := rfl
@[simp] theorem State.insertCtx_inflight (ctx : Ctx) : (s.insertCtx ctx).inflight = s.inflight := rfl
@[simp] theorem State.insertCtx_nextId (ctx : Ctx) : (s.insertCtx ctx).nextId = s.nextId := rfl
@[simp] theorem State.insertCtx_schedule (ctx : Ctx) : (s.insertCtx ctx).schedule = s.schedule := rfl
@[simp] theorem State.insertCtx_trace (ctx : Ctx) : (s.insertCtx ctx).trace = s.trace := rfl

/-! ## `State.insertTlb` -/

@[simp] theorem State.insertTlb_params (e : TlbEntry) : (s.insertTlb e).params = s.params := rfl
@[simp] theorem State.insertTlb_mem (e : TlbEntry) : (s.insertTlb e).mem = s.mem := rfl
@[simp] theorem State.insertTlb_failing (e : TlbEntry) : (s.insertTlb e).failing = s.failing := rfl
@[simp] theorem State.insertTlb_ddtp (e : TlbEntry) : (s.insertTlb e).ddtp = s.ddtp := rfl
@[simp] theorem State.insertTlb_ctxCache (e : TlbEntry) : (s.insertTlb e).ctxCache = s.ctxCache := rfl
@[simp] theorem State.insertTlb_iotlb (e : TlbEntry) :
    (s.insertTlb e).iotlb = s.iotlb.setEntries (upsert (TlbEntry.hasKey e.gscid e.pscid e.vpn) e s.iotlb.current.entries) := rfl
@[simp] theorem State.insertTlb_cq (e : TlbEntry) : (s.insertTlb e).cq = s.cq := rfl
@[simp] theorem State.insertTlb_fq (e : TlbEntry) : (s.insertTlb e).fq = s.fq := rfl
@[simp] theorem State.insertTlb_pq (e : TlbEntry) : (s.insertTlb e).pq = s.pq := rfl
@[simp] theorem State.insertTlb_pending (e : TlbEntry) : (s.insertTlb e).pending = s.pending := rfl
@[simp] theorem State.insertTlb_thread (e : TlbEntry) : (s.insertTlb e).thread = s.thread := rfl
@[simp] theorem State.insertTlb_cmdLatches (e : TlbEntry) : (s.insertTlb e).cmdLatches = s.cmdLatches := rfl
@[simp] theorem State.insertTlb_inflight (e : TlbEntry) : (s.insertTlb e).inflight = s.inflight := rfl
@[simp] theorem State.insertTlb_nextId (e : TlbEntry) : (s.insertTlb e).nextId = s.nextId := rfl
@[simp] theorem State.insertTlb_schedule (e : TlbEntry) : (s.insertTlb e).schedule = s.schedule := rfl
@[simp] theorem State.insertTlb_trace (e : TlbEntry) : (s.insertTlb e).trace = s.trace := rfl

/-! ## `State.invalTlb` -/

@[simp] theorem State.invalTlb_params (scope : Scope) : (s.invalTlb scope).params = s.params := rfl
@[simp] theorem State.invalTlb_mem (scope : Scope) : (s.invalTlb scope).mem = s.mem := rfl
@[simp] theorem State.invalTlb_failing (scope : Scope) : (s.invalTlb scope).failing = s.failing := rfl
@[simp] theorem State.invalTlb_ddtp (scope : Scope) : (s.invalTlb scope).ddtp = s.ddtp := rfl
@[simp] theorem State.invalTlb_ctxCache (scope : Scope) : (s.invalTlb scope).ctxCache = s.ctxCache := rfl
@[simp] theorem State.invalTlb_iotlb (scope : Scope) :
    (s.invalTlb scope).iotlb = s.iotlb.setEntries (s.iotlb.current.entries.map fun e => if scope.covers e then e.invalidate else e) := rfl
@[simp] theorem State.invalTlb_cq (scope : Scope) : (s.invalTlb scope).cq = s.cq := rfl
@[simp] theorem State.invalTlb_fq (scope : Scope) : (s.invalTlb scope).fq = s.fq := rfl
@[simp] theorem State.invalTlb_pq (scope : Scope) : (s.invalTlb scope).pq = s.pq := rfl
@[simp] theorem State.invalTlb_pending (scope : Scope) : (s.invalTlb scope).pending = s.pending := rfl
@[simp] theorem State.invalTlb_thread (scope : Scope) : (s.invalTlb scope).thread = s.thread := rfl
@[simp] theorem State.invalTlb_cmdLatches (scope : Scope) : (s.invalTlb scope).cmdLatches = s.cmdLatches := rfl
@[simp] theorem State.invalTlb_inflight (scope : Scope) : (s.invalTlb scope).inflight = s.inflight := rfl
@[simp] theorem State.invalTlb_nextId (scope : Scope) : (s.invalTlb scope).nextId = s.nextId := rfl
@[simp] theorem State.invalTlb_schedule (scope : Scope) : (s.invalTlb scope).schedule = s.schedule := rfl
@[simp] theorem State.invalTlb_trace (scope : Scope) : (s.invalTlb scope).trace = s.trace := rfl

/-! ## `State.invalCtx` -/

@[simp] theorem State.invalCtx_params (which : CtxEntry → Bool) : (s.invalCtx which).params = s.params := rfl
@[simp] theorem State.invalCtx_mem (which : CtxEntry → Bool) : (s.invalCtx which).mem = s.mem := rfl
@[simp] theorem State.invalCtx_failing (which : CtxEntry → Bool) : (s.invalCtx which).failing = s.failing := rfl
@[simp] theorem State.invalCtx_ddtp (which : CtxEntry → Bool) : (s.invalCtx which).ddtp = s.ddtp := rfl
@[simp] theorem State.invalCtx_ctxCache (which : CtxEntry → Bool) :
    (s.invalCtx which).ctxCache = s.ctxCache.setEntries (s.ctxCache.current.entries.map fun e => if which e then e.invalidate else e) := rfl
@[simp] theorem State.invalCtx_iotlb (which : CtxEntry → Bool) : (s.invalCtx which).iotlb = s.iotlb := rfl
@[simp] theorem State.invalCtx_cq (which : CtxEntry → Bool) : (s.invalCtx which).cq = s.cq := rfl
@[simp] theorem State.invalCtx_fq (which : CtxEntry → Bool) : (s.invalCtx which).fq = s.fq := rfl
@[simp] theorem State.invalCtx_pq (which : CtxEntry → Bool) : (s.invalCtx which).pq = s.pq := rfl
@[simp] theorem State.invalCtx_pending (which : CtxEntry → Bool) : (s.invalCtx which).pending = s.pending := rfl
@[simp] theorem State.invalCtx_thread (which : CtxEntry → Bool) : (s.invalCtx which).thread = s.thread := rfl
@[simp] theorem State.invalCtx_cmdLatches (which : CtxEntry → Bool) : (s.invalCtx which).cmdLatches = s.cmdLatches := rfl
@[simp] theorem State.invalCtx_inflight (which : CtxEntry → Bool) : (s.invalCtx which).inflight = s.inflight := rfl
@[simp] theorem State.invalCtx_nextId (which : CtxEntry → Bool) : (s.invalCtx which).nextId = s.nextId := rfl
@[simp] theorem State.invalCtx_schedule (which : CtxEntry → Bool) : (s.invalCtx which).schedule = s.schedule := rfl
@[simp] theorem State.invalCtx_trace (which : CtxEntry → Bool) : (s.invalCtx which).trace = s.trace := rfl

/-! ## `State.releaseGenerations` -/

@[simp] theorem State.releaseGenerations_params : s.releaseGenerations.params = s.params := rfl
@[simp] theorem State.releaseGenerations_mem : s.releaseGenerations.mem = s.mem := rfl
@[simp] theorem State.releaseGenerations_failing : s.releaseGenerations.failing = s.failing := rfl
@[simp] theorem State.releaseGenerations_ddtp : s.releaseGenerations.ddtp = s.ddtp := rfl
@[simp] theorem State.releaseGenerations_ctxCache :
    s.releaseGenerations.ctxCache = s.ctxCache.release (s.inflight.map InFlight.ctxGen) := rfl
@[simp] theorem State.releaseGenerations_iotlb : s.releaseGenerations.iotlb = s.iotlb.release (s.inflight.map InFlight.tlbGen) := rfl
@[simp] theorem State.releaseGenerations_cq : s.releaseGenerations.cq = s.cq := rfl
@[simp] theorem State.releaseGenerations_fq : s.releaseGenerations.fq = s.fq := rfl
@[simp] theorem State.releaseGenerations_pq : s.releaseGenerations.pq = s.pq := rfl
@[simp] theorem State.releaseGenerations_pending : s.releaseGenerations.pending = s.pending := rfl
@[simp] theorem State.releaseGenerations_thread : s.releaseGenerations.thread = s.thread := rfl
@[simp] theorem State.releaseGenerations_cmdLatches : s.releaseGenerations.cmdLatches = s.cmdLatches := rfl
@[simp] theorem State.releaseGenerations_inflight : s.releaseGenerations.inflight = s.inflight := rfl
@[simp] theorem State.releaseGenerations_nextId : s.releaseGenerations.nextId = s.nextId := rfl
@[simp] theorem State.releaseGenerations_schedule : s.releaseGenerations.schedule = s.schedule := rfl
@[simp] theorem State.releaseGenerations_trace : s.releaseGenerations.trace = s.trace := rfl

/-! ## `State.setInflight` -/

@[simp] theorem State.setInflight_params (f : InFlight) : (s.setInflight f).params = s.params := rfl
@[simp] theorem State.setInflight_mem (f : InFlight) : (s.setInflight f).mem = s.mem := rfl
@[simp] theorem State.setInflight_failing (f : InFlight) : (s.setInflight f).failing = s.failing := rfl
@[simp] theorem State.setInflight_ddtp (f : InFlight) : (s.setInflight f).ddtp = s.ddtp := rfl
@[simp] theorem State.setInflight_ctxCache (f : InFlight) : (s.setInflight f).ctxCache = s.ctxCache := rfl
@[simp] theorem State.setInflight_iotlb (f : InFlight) : (s.setInflight f).iotlb = s.iotlb := rfl
@[simp] theorem State.setInflight_cq (f : InFlight) : (s.setInflight f).cq = s.cq := rfl
@[simp] theorem State.setInflight_fq (f : InFlight) : (s.setInflight f).fq = s.fq := rfl
@[simp] theorem State.setInflight_pq (f : InFlight) : (s.setInflight f).pq = s.pq := rfl
@[simp] theorem State.setInflight_pending (f : InFlight) : (s.setInflight f).pending = s.pending := rfl
@[simp] theorem State.setInflight_thread (f : InFlight) : (s.setInflight f).thread = s.thread := rfl
@[simp] theorem State.setInflight_cmdLatches (f : InFlight) : (s.setInflight f).cmdLatches = s.cmdLatches := rfl
@[simp] theorem State.setInflight_inflight (f : InFlight) :
    (s.setInflight f).inflight = s.inflight.map fun g => if g.id = f.id then f else g := rfl
@[simp] theorem State.setInflight_nextId (f : InFlight) : (s.setInflight f).nextId = s.nextId := rfl
@[simp] theorem State.setInflight_schedule (f : InFlight) : (s.setInflight f).schedule = s.schedule := rfl
@[simp] theorem State.setInflight_trace (f : InFlight) : (s.setInflight f).trace = s.trace := rfl

/-! ## `State.goOn` -/

@[simp] theorem State.goOn_params (f : InFlight) (p : Progress) : (s.goOn f p).params = s.params := rfl
@[simp] theorem State.goOn_mem (f : InFlight) (p : Progress) : (s.goOn f p).mem = s.mem := rfl
@[simp] theorem State.goOn_failing (f : InFlight) (p : Progress) : (s.goOn f p).failing = s.failing := rfl
@[simp] theorem State.goOn_ddtp (f : InFlight) (p : Progress) : (s.goOn f p).ddtp = s.ddtp := rfl
@[simp] theorem State.goOn_ctxCache (f : InFlight) (p : Progress) : (s.goOn f p).ctxCache = s.ctxCache := rfl
@[simp] theorem State.goOn_iotlb (f : InFlight) (p : Progress) : (s.goOn f p).iotlb = s.iotlb := rfl
@[simp] theorem State.goOn_cq (f : InFlight) (p : Progress) : (s.goOn f p).cq = s.cq := rfl
@[simp] theorem State.goOn_fq (f : InFlight) (p : Progress) : (s.goOn f p).fq = s.fq := rfl
@[simp] theorem State.goOn_pq (f : InFlight) (p : Progress) : (s.goOn f p).pq = s.pq := rfl
@[simp] theorem State.goOn_pending (f : InFlight) (p : Progress) : (s.goOn f p).pending = s.pending := rfl
@[simp] theorem State.goOn_thread (f : InFlight) (p : Progress) : (s.goOn f p).thread = s.thread := rfl
@[simp] theorem State.goOn_cmdLatches (f : InFlight) (p : Progress) : (s.goOn f p).cmdLatches = s.cmdLatches := rfl
@[simp] theorem State.goOn_inflight (f : InFlight) (p : Progress) :
    (s.goOn f p).inflight = s.inflight.map fun g => if g.id = f.id then { f with progress := p, latches := [] } else g := rfl
@[simp] theorem State.goOn_nextId (f : InFlight) (p : Progress) : (s.goOn f p).nextId = s.nextId := rfl
@[simp] theorem State.goOn_schedule (f : InFlight) (p : Progress) : (s.goOn f p).schedule = s.schedule := rfl
@[simp] theorem State.goOn_trace (f : InFlight) (p : Progress) : (s.goOn f p).trace = s.trace := rfl

/-! ## `State.conclude` -/

@[simp] theorem State.conclude_eq (f : InFlight) (r : Result) : s.conclude f r = s.goOn f (.ending r) := rfl

/-! ## `State.finish` -/

@[simp] theorem State.finish_params (f : InFlight) (r : Result) : (s.finish f r).params = s.params := rfl
@[simp] theorem State.finish_mem (f : InFlight) (r : Result) : (s.finish f r).mem = s.mem := rfl
@[simp] theorem State.finish_failing (f : InFlight) (r : Result) : (s.finish f r).failing = s.failing := rfl
@[simp] theorem State.finish_ddtp (f : InFlight) (r : Result) : (s.finish f r).ddtp = s.ddtp := rfl
@[simp] theorem State.finish_ctxCache (f : InFlight) (r : Result) :
    (s.finish f r).ctxCache = s.ctxCache.release ((s.inflight.filter fun g => g.id != f.id).map InFlight.ctxGen) := rfl
@[simp] theorem State.finish_iotlb (f : InFlight) (r : Result) :
    (s.finish f r).iotlb = s.iotlb.release ((s.inflight.filter fun g => g.id != f.id).map InFlight.tlbGen) := rfl
@[simp] theorem State.finish_cq (f : InFlight) (r : Result) : (s.finish f r).cq = s.cq := rfl
@[simp] theorem State.finish_fq (f : InFlight) (r : Result) : (s.finish f r).fq = s.fq := rfl
@[simp] theorem State.finish_pq (f : InFlight) (r : Result) : (s.finish f r).pq = s.pq := rfl
@[simp] theorem State.finish_pending (f : InFlight) (r : Result) : (s.finish f r).pending = s.pending := rfl
@[simp] theorem State.finish_thread (f : InFlight) (r : Result) : (s.finish f r).thread = s.thread := rfl
@[simp] theorem State.finish_cmdLatches (f : InFlight) (r : Result) : (s.finish f r).cmdLatches = s.cmdLatches := rfl
@[simp] theorem State.finish_inflight (f : InFlight) (r : Result) :
    (s.finish f r).inflight = s.inflight.filter fun g => g.id != f.id := rfl
@[simp] theorem State.finish_nextId (f : InFlight) (r : Result) : (s.finish f r).nextId = s.nextId := rfl
@[simp] theorem State.finish_schedule (f : InFlight) (r : Result) : (s.finish f r).schedule = s.schedule := rfl
@[simp] theorem State.finish_trace (f : InFlight) (r : Result) :
    (s.finish f r).trace = .result f.id r :: s.trace := rfl

/-! ## `State.retire` -/

@[simp] theorem State.retire_params : s.retire.params = s.params := rfl
@[simp] theorem State.retire_mem : s.retire.mem = s.mem := rfl
@[simp] theorem State.retire_failing : s.retire.failing = s.failing := rfl
@[simp] theorem State.retire_ddtp : s.retire.ddtp = s.ddtp := rfl
@[simp] theorem State.retire_ctxCache : s.retire.ctxCache = s.ctxCache := rfl
@[simp] theorem State.retire_iotlb : s.retire.iotlb = s.iotlb := rfl
@[simp] theorem State.retire_cq : s.retire.cq = { s.cq with head := (s.cq.head + 1) % s.cq.size } := rfl
@[simp] theorem State.retire_fq : s.retire.fq = s.fq := rfl
@[simp] theorem State.retire_pq : s.retire.pq = s.pq := rfl
@[simp] theorem State.retire_pending : s.retire.pending = s.pending := rfl
@[simp] theorem State.retire_thread : s.retire.thread = s.thread := rfl
@[simp] theorem State.retire_cmdLatches : s.retire.cmdLatches = s.cmdLatches := rfl
@[simp] theorem State.retire_inflight : s.retire.inflight = s.inflight := rfl
@[simp] theorem State.retire_nextId : s.retire.nextId = s.nextId := rfl
@[simp] theorem State.retire_schedule : s.retire.schedule = s.schedule := rfl
@[simp] theorem State.retire_trace : s.retire.trace = s.trace := rfl

/-! ## `State.stopIllegal` -/

@[simp] theorem State.stopIllegal_params : s.stopIllegal.params = s.params := rfl
@[simp] theorem State.stopIllegal_mem : s.stopIllegal.mem = s.mem := rfl
@[simp] theorem State.stopIllegal_failing : s.stopIllegal.failing = s.failing := rfl
@[simp] theorem State.stopIllegal_ddtp : s.stopIllegal.ddtp = s.ddtp := rfl
@[simp] theorem State.stopIllegal_ctxCache : s.stopIllegal.ctxCache = s.ctxCache := rfl
@[simp] theorem State.stopIllegal_iotlb : s.stopIllegal.iotlb = s.iotlb := rfl
@[simp] theorem State.stopIllegal_cq : s.stopIllegal.cq = { s.cq with cmdIll := true } := rfl
@[simp] theorem State.stopIllegal_fq : s.stopIllegal.fq = s.fq := rfl
@[simp] theorem State.stopIllegal_pq : s.stopIllegal.pq = s.pq := rfl
@[simp] theorem State.stopIllegal_pending : s.stopIllegal.pending = s.pending := rfl
@[simp] theorem State.stopIllegal_thread : s.stopIllegal.thread = .idle := rfl
@[simp] theorem State.stopIllegal_cmdLatches : s.stopIllegal.cmdLatches = s.cmdLatches := rfl
@[simp] theorem State.stopIllegal_inflight : s.stopIllegal.inflight = s.inflight := rfl
@[simp] theorem State.stopIllegal_nextId : s.stopIllegal.nextId = s.nextId := rfl
@[simp] theorem State.stopIllegal_schedule : s.stopIllegal.schedule = s.schedule := rfl
@[simp] theorem State.stopIllegal_trace : s.stopIllegal.trace = .signal .cq :: s.trace := rfl

/-! ## `State.stopMemFault` -/

@[simp] theorem State.stopMemFault_params : s.stopMemFault.params = s.params := rfl
@[simp] theorem State.stopMemFault_mem : s.stopMemFault.mem = s.mem := rfl
@[simp] theorem State.stopMemFault_failing : s.stopMemFault.failing = s.failing := rfl
@[simp] theorem State.stopMemFault_ddtp : s.stopMemFault.ddtp = s.ddtp := rfl
@[simp] theorem State.stopMemFault_ctxCache : s.stopMemFault.ctxCache = s.ctxCache := rfl
@[simp] theorem State.stopMemFault_iotlb : s.stopMemFault.iotlb = s.iotlb := rfl
@[simp] theorem State.stopMemFault_cq : s.stopMemFault.cq = { s.cq with cmdMf := true } := rfl
@[simp] theorem State.stopMemFault_fq : s.stopMemFault.fq = s.fq := rfl
@[simp] theorem State.stopMemFault_pq : s.stopMemFault.pq = s.pq := rfl
@[simp] theorem State.stopMemFault_pending : s.stopMemFault.pending = s.pending := rfl
@[simp] theorem State.stopMemFault_thread : s.stopMemFault.thread = .idle := rfl
@[simp] theorem State.stopMemFault_cmdLatches : s.stopMemFault.cmdLatches = s.cmdLatches := rfl
@[simp] theorem State.stopMemFault_inflight : s.stopMemFault.inflight = s.inflight := rfl
@[simp] theorem State.stopMemFault_nextId : s.stopMemFault.nextId = s.nextId := rfl
@[simp] theorem State.stopMemFault_schedule : s.stopMemFault.schedule = s.schedule := rfl
@[simp] theorem State.stopMemFault_trace : s.stopMemFault.trace = .signal .cq :: s.trace := rfl

/-! ## `State.afterFetch` -/

@[simp] theorem State.afterFetch_params : s.afterFetch.params = s.params := rfl
@[simp] theorem State.afterFetch_mem : s.afterFetch.mem = s.mem := rfl
@[simp] theorem State.afterFetch_failing : s.afterFetch.failing = s.failing := rfl
@[simp] theorem State.afterFetch_ddtp : s.afterFetch.ddtp = s.ddtp := rfl
@[simp] theorem State.afterFetch_ctxCache : s.afterFetch.ctxCache = s.ctxCache := rfl
@[simp] theorem State.afterFetch_iotlb : s.afterFetch.iotlb = s.iotlb := rfl
@[simp] theorem State.afterFetch_cq : s.afterFetch.cq = s.cq := rfl
@[simp] theorem State.afterFetch_fq : s.afterFetch.fq = s.fq := rfl
@[simp] theorem State.afterFetch_pq : s.afterFetch.pq = s.pq := rfl
@[simp] theorem State.afterFetch_pending : s.afterFetch.pending = s.pending := rfl
@[simp] theorem State.afterFetch_thread : s.afterFetch.thread = s.thread := rfl
@[simp] theorem State.afterFetch_cmdLatches : s.afterFetch.cmdLatches = [] := rfl
@[simp] theorem State.afterFetch_inflight : s.afterFetch.inflight = s.inflight := rfl
@[simp] theorem State.afterFetch_nextId : s.afterFetch.nextId = s.nextId := rfl
@[simp] theorem State.afterFetch_schedule : s.afterFetch.schedule = s.schedule := rfl
@[simp] theorem State.afterFetch_trace :
    s.afterFetch.trace = .access .read s.commandAddr 16 s.fetchCommand.isSome :: s.trace := rfl

/-! ## `State.leaveLoop` -/

@[simp] theorem State.leaveLoop_params : s.leaveLoop.params = s.params := rfl
@[simp] theorem State.leaveLoop_mem : s.leaveLoop.mem = s.mem := rfl
@[simp] theorem State.leaveLoop_failing : s.leaveLoop.failing = s.failing := rfl
@[simp] theorem State.leaveLoop_ddtp : s.leaveLoop.ddtp = s.ddtp := rfl
@[simp] theorem State.leaveLoop_ctxCache : s.leaveLoop.ctxCache = s.ctxCache := rfl
@[simp] theorem State.leaveLoop_iotlb : s.leaveLoop.iotlb = s.iotlb := rfl
@[simp] theorem State.leaveLoop_cq : s.leaveLoop.cq = s.cq := rfl
@[simp] theorem State.leaveLoop_fq : s.leaveLoop.fq = s.fq := rfl
@[simp] theorem State.leaveLoop_pq : s.leaveLoop.pq = s.pq := rfl
@[simp] theorem State.leaveLoop_pending : s.leaveLoop.pending = s.pending := rfl
@[simp] theorem State.leaveLoop_thread : s.leaveLoop.thread = .idle := rfl
@[simp] theorem State.leaveLoop_cmdLatches : s.leaveLoop.cmdLatches = [] := rfl
@[simp] theorem State.leaveLoop_inflight : s.leaveLoop.inflight = s.inflight := rfl
@[simp] theorem State.leaveLoop_nextId : s.leaveLoop.nextId = s.nextId := rfl
@[simp] theorem State.leaveLoop_schedule : s.leaveLoop.schedule = s.schedule := rfl
@[simp] theorem State.leaveLoop_trace : s.leaveLoop.trace = s.trace := rfl

/-! ## Caches -/

@[simp] theorem Cache.setEntries_entries {E : Type} (c : Cache E) (es : List E) : (c.setEntries es).current.entries = es := rfl
@[simp] theorem Cache.setEntries_number {E : Type} (c : Cache E) (es : List E) :
    (c.setEntries es).current.number = c.current.number := rfl
@[simp] theorem Cache.setEntries_pinned {E : Type} (c : Cache E) (es : List E) : (c.setEntries es).pinned = c.pinned := rfl
@[simp] theorem Cache.release_current {E : Type} (c : Cache E) (pins : List (Option Nat)) :
    (c.release pins).current = c.current := rfl
@[simp] theorem Cache.replace_entries {E : Type} (c : Cache E) : c.replace.current.entries = [] := rfl
@[simp] theorem Cache.replace_number {E : Type} (c : Cache E) : c.replace.current.number = c.current.number + 1 := rfl

end Sys2Proof.Machine
end

