-- ==== Sys2Proof/Laws/Ops.lean ====
section
/-! SUPPORT. For each shared operation one lemma that says once everything it can do, to be cited instead of unfolding it. -/

namespace Sys2Proof.Machine

/-! ## Memory writes -/

/-- A memory write fails and stores nothing, or succeeds and stores its bytes; either way it is logged, and nothing
else changes. -/
theorem State.memWrite_cases {s t : State} {a : Word} {bs : List Byte} {ok : Bool} (h : s.memWrite a bs = (t, ok)) :
    (accessFails s.failing .write a bs.length = true ∧ ok = false ∧ t = s.logAccess .write a bs.length false) ∨
    (accessFails s.failing .write a bs.length = false ∧ ok = true ∧
      t = ({ s with mem := s.mem.store a bs } : State).logAccess .write a bs.length true) := by
  unfold State.memWrite at h
  split at h
  · next hf => cases h; exact .inl ⟨hf, rfl, rfl⟩
  · next hf => cases h; exact .inr ⟨by simpa using hf, rfl, rfl⟩

/-- A memory write keeps memory in canonical form, and every byte outside what it stores reads as before. -/
theorem State.memWrite_at {s t : State} {a : Word} {bs : List Byte} {ok : Bool} (h : s.memWrite a bs = (t, ok))
    (hwf : s.mem.WF) : t.mem.WF ∧ ∀ x : Word, ¬ inBytes a bs.length x → t.mem.at x = s.mem.at x := by
  rcases State.memWrite_cases h with ⟨-, -, rfl⟩ | ⟨-, -, rfl⟩
  · exact ⟨hwf, fun _ _ => rfl⟩
  · exact ⟨Memory.WF_store hwf a bs, fun x hx => Memory.at_store_outside hwf a bs x hx⟩

/-! ## Caches -/

/-- What an upsert leaves in the list: elements that were there, and the new one. -/
theorem mem_upsert {E : Type} {same : E → Bool} {e x : E} {l : List E} (h : x ∈ upsert same e l) : x ∈ l ∨ x = e := by
  unfold upsert at h
  split at h
  · obtain ⟨y, hy, rfl⟩ := List.mem_map.1 h
    by_cases hs : same y = true
    · simp [hs]
    · rw [if_neg hs]; exact .inl hy
  · simpa using h

/-- An upsert of an element that its own test picks out is found by that test. -/
theorem find?_upsert_self {E : Type} {same : E → Bool} {e : E} (he : same e = true) (l : List E) :
    (upsert same e l).find? same = some e := by
  unfold upsert
  split
  · next ha =>
    induction l with
    | nil => simp at ha
    | cons x l ih =>
      by_cases hx : same x = true
      · simp [hx, he]
      · simp only [List.any_cons, hx, Bool.false_or] at ha
        have hx : same x = false := by simpa using hx
        rw [List.map_cons, List.find?_cons, hx]
        simpa only [hx, Bool.false_eq_true, if_false] using ih ha
  · next ha =>
    have : l.find? same = none := by simpa using ha
    simp [List.find?_append, this, he]

/-- An upsert does not change what another test finds, if no element passes both tests. -/
theorem find?_upsert_other {E : Type} {same other : E → Bool} {e : E} (he : other e = false)
    (hd : ∀ x, same x = true → other x = false) (l : List E) : (upsert same e l).find? other = l.find? other := by
  unfold upsert
  split
  · clear * - he hd
    induction l with
    | nil => rfl
    | cons x l ih =>
      by_cases hx : same x = true
      · simp [hx, he, hd x hx, ih]
      · have hx : same x = false := by simpa using hx
        rw [List.map_cons, List.find?_cons, List.find?_cons, ih]
        simp only [hx, Bool.false_eq_true, if_false]
  · simp [List.find?_append, he]

/-- Finding in a list whose elements were changed without changing the test's answer. -/
theorem find?_map_same {E : Type} {p : E → Bool} {g : E → E} (hg : ∀ x, p (g x) = p x) (l : List E) :
    (l.map g).find? p = (l.find? p).map g := by
  induction l with
  | nil => rfl
  | cons x l ih =>
    simp only [List.map_cons, List.find?_cons, hg, ih]
    cases p x <;> rfl

@[simp] theorem CtxEntry.invalidate_ctx (e : CtxEntry) : e.invalidate.ctx = e.ctx := rfl
@[simp] theorem CtxEntry.invalidate_valid (e : CtxEntry) : e.invalidate.valid = false := rfl
@[simp] theorem TlbEntry.invalidate_gscid (e : TlbEntry) : e.invalidate.gscid = e.gscid := rfl
@[simp] theorem TlbEntry.invalidate_pscid (e : TlbEntry) : e.invalidate.pscid = e.pscid := rfl
@[simp] theorem TlbEntry.invalidate_vpn (e : TlbEntry) : e.invalidate.vpn = e.vpn := rfl
@[simp] theorem TlbEntry.invalidate_valid (e : TlbEntry) : e.invalidate.valid = false := rfl

/-- An IOTLB invalidation by key: the entry of a key, with its valid bit cleared if the scope covers it. -/
theorem State.invalTlb_tlbEntry (s : State) (scope : Scope) (g : BitVec 16) (p : BitVec 20) (v : BitVec 52) :
    (s.invalTlb scope).tlbEntry g p v =
      (s.tlbEntry g p v).map fun e => if scope.covers e then e.invalidate else e := by
  simp only [State.tlbEntry, State.invalTlb_iotlb, Cache.setEntries_entries]
  refine find?_map_same (fun x => ?_) _
  by_cases h : scope.covers x <;> simp [h, TlbEntry.hasKey]

/-- A context-cache invalidation by key. -/
theorem State.invalCtx_ctxEntry (s : State) (which : CtxEntry → Bool) (d : BitVec 24) (p : BitVec 20) :
    (s.invalCtx which).ctxEntry d p = (s.ctxEntry d p).map fun e => if which e then e.invalidate else e := by
  simp only [State.ctxEntry, State.invalCtx_ctxCache, Cache.setEntries_entries]
  refine find?_map_same (fun x => ?_) _
  by_cases h : which x <;> simp [h, CtxEntry.hasKey]

/-! ## Requests in flight -/

/-- A request found in flight has the number it was looked up by, and is one of those in flight. -/
theorem State.lookupInflight_some {s : State} {id : Nat} {f : InFlight} (h : s.lookupInflight id = some f) :
    f.id = id ∧ f ∈ s.inflight := by
  unfold State.lookupInflight at h
  exact ⟨by simpa using List.find?_some h, List.mem_of_find?_eq_some h⟩

/-- Replacing the record of a request in flight. -/
theorem State.lookupInflight_setInflight (s : State) (f : InFlight) (id : Nat) :
    (s.setInflight f).lookupInflight id =
      if id = f.id then (s.lookupInflight id).map fun _ => f else s.lookupInflight id := by
  simp only [State.lookupInflight, State.setInflight_inflight]
  generalize s.inflight = l
  induction l with
  | nil => simp
  | cons g l ih =>
    simp only [List.map_cons, List.find?_cons]
    by_cases hg : g.id = f.id
    · by_cases hid : id = f.id
      · subst hid; simp [hg]
      · have : ¬ f.id = id := fun h => hid h.symm
        have h2 : ¬ g.id = id := fun h => hid (h ▸ hg ▸ rfl)
        simp only [hg, this, decide_false, ih, if_neg hid, if_true]
    · by_cases hid : id = f.id
      · subst hid; simp only [hg, decide_false, ih, if_true, if_false]
      · simp only [hg, ih, if_neg hid, if_false]

/-- A request that goes on stands at its new place. -/
theorem State.lookupInflight_goOn (s : State) (f : InFlight) (p : Progress) (id : Nat) :
    (s.goOn f p).lookupInflight id =
      if id = f.id then (s.lookupInflight id).map fun _ => { f with progress := p, latches := [] } else s.lookupInflight id :=
  State.lookupInflight_setInflight s { f with progress := p, latches := [] } id

/-- A request that ends is no longer in flight; the others are. -/
theorem State.lookupInflight_finish (s : State) (f : InFlight) (r : Result) (id : Nat) :
    (s.finish f r).lookupInflight id = if id = f.id then none else s.lookupInflight id := by
  simp only [State.lookupInflight, State.finish_inflight]
  generalize s.inflight = l
  induction l with
  | nil => simp
  | cons g l ih =>
    by_cases hg : g.id = f.id
    · rw [List.filter_cons_of_neg (by simp [hg]), ih, List.find?_cons]
      by_cases hid : id = f.id
      · simp [hid]
      · have h2 : ¬ g.id = id := fun h => hid (h ▸ hg ▸ rfl)
        simp [hid, h2]
    · rw [List.filter_cons_of_pos (by simp [hg]), List.find?_cons, List.find?_cons, ih]
      by_cases hid : id = f.id
      · subst hid; simp [hg]
      · simp [hid]

/-! ## The enqueue contract and the reports -/

/-- What an enqueue can do: drop the record, flag the overflow, fail its write, or store the record and advance. -/
theorem enqueue_cases {q q' : RecQueue} {int : IntReq} {rec : List Word} {s s' : State} (h : enqueue q int rec s = (q', s')) :
    (q.drops = true ∧ q' = q ∧ s' = s) ∨
    (q.drops = false ∧ q.full = true ∧ q' = { q with overflow := true } ∧ s' = s) ∨
    (q.drops = false ∧ q.full = false ∧ q' = { q with memFault := true } ∧
      s' = s.logAccess .write (q.base + BitVec.ofNat 64 (q.tail * (8 * rec.length))) (leDwords rec).length false) ∨
    (q.drops = false ∧ q.full = false ∧ q' = { q with tail := (q.tail + 1) % q.size, ip := true } ∧
      ∃ s1 : State, s1 = ({ s with mem := s.mem.store (q.base + BitVec.ofNat 64 (q.tail * (8 * rec.length))) (leDwords rec) } : State).logAccess
          .write (q.base + BitVec.ofNat 64 (q.tail * (8 * rec.length))) (leDwords rec).length true ∧
        s' = if q.ip then s1 else s1.signal int) := by
  unfold enqueue at h
  split at h
  · next hd => cases h; exact .inl ⟨hd, rfl, rfl⟩
  · next hd =>
    have hd : q.drops = false := by simpa using hd
    split at h
    · next hf => cases h; exact .inr (.inl ⟨hd, hf, rfl, rfl⟩)
    · next hf =>
      have hf : q.full = false := by simpa using hf
      split at h
      · next s1 hw =>
        cases h
        rcases State.memWrite_cases hw with ⟨-, -, rfl⟩ | ⟨-, hx, -⟩
        · exact .inr (.inr (.inl ⟨hd, hf, rfl, rfl⟩))
        · cases hx
      · next s1 hw =>
        cases h
        rcases State.memWrite_cases hw with ⟨-, hx, -⟩ | ⟨-, -, rfl⟩
        · cases hx
        · exact .inr (.inr (.inr ⟨hd, hf, rfl, _, rfl, rfl⟩))

/-- What enqueuing can change in a queue: its tail and its three flags, which it only sets. -/
theorem enqueue_queue {q q' : RecQueue} {int : IntReq} {rec : List Word} {s s' : State} (h : enqueue q int rec s = (q', s')) :
    q'.base = q.base ∧ q'.size = q.size ∧ q'.head = q.head ∧ q'.active = q.active ∧
    (q'.tail = q.tail ∨ q'.tail = (q.tail + 1) % q.size) ∧
    (q.overflow = true → q'.overflow = true) ∧ (q.memFault = true → q'.memFault = true) ∧ (q.ip = true → q'.ip = true) := by
  rcases enqueue_cases h with ⟨-, rfl, -⟩ | ⟨-, -, rfl, -⟩ | ⟨-, -, rfl, -⟩ | ⟨-, -, rfl, -⟩ <;> simp

/-- What enqueuing can change in the state: memory, and outputs added to the trace, each the write or the queue's interrupt. -/
theorem enqueue_state {q q' : RecQueue} {int : IntReq} {rec : List Word} {s s' : State} (h : enqueue q int rec s = (q', s')) :
    s' = { s with mem := s'.mem, trace := s'.trace } ∧ (s.mem.WF → s'.mem.WF) ∧
    ∃ l, s'.trace = l ++ s.trace ∧ ∀ o ∈ l, o = .signal int ∨ ∃ a n ok, o = .access .write a n ok := by
  rcases enqueue_cases h with ⟨-, -, rfl⟩ | ⟨-, -, -, rfl⟩ | ⟨-, -, -, rfl⟩ | ⟨-, -, -, s1, rfl, rfl⟩
  · exact ⟨rfl, id, [], rfl, by simp⟩
  · exact ⟨rfl, id, [], rfl, by simp⟩
  · exact ⟨rfl, id, [_], rfl, by simp⟩
  · split
    · exact ⟨rfl, fun hwf => Memory.WF_store hwf _ _, [_], rfl, by simp⟩
    · exact ⟨rfl, fun hwf => Memory.WF_store hwf _ _, [_, _], rfl, by simp⟩

/-- What enqueuing a fault record can change in the state. -/
theorem State.enqueueFq_state (s : State) (rec : List Word) :
    ∃ q mem l, s.enqueueFq rec = { s with mem, fq := q, trace := l ++ s.trace } ∧ (s.mem.WF → mem.WF) ∧
      (enqueue s.fq .fq rec s).1 = q ∧ ∀ o ∈ l, o = .signal .fq ∨ ∃ a n ok, o = .access .write a n ok := by
  rcases hE : enqueue s.fq .fq rec s with ⟨q, s1⟩
  obtain ⟨hs, hwf, l, hl, ho⟩ := enqueue_state hE
  refine ⟨q, s1.mem, l, ?_, hwf, rfl, ho⟩
  rw [← hl]
  simp only [State.enqueueFq, hE]
  rw [hs]

/-- What enqueuing a page request can change in the state. -/
theorem State.enqueuePq_state (s : State) (rec : List Word) :
    ∃ q mem l, s.enqueuePq rec = { s with mem, pq := q, trace := l ++ s.trace } ∧ (s.mem.WF → mem.WF) ∧
      (enqueue s.pq .pq rec s).1 = q ∧ ∀ o ∈ l, o = .signal .pq ∨ ∃ a n ok, o = .access .write a n ok := by
  rcases hE : enqueue s.pq .pq rec s with ⟨q, s1⟩
  obtain ⟨hs, hwf, l, hl, ho⟩ := enqueue_state hE
  refine ⟨q, s1.mem, l, ?_, hwf, rfl, ho⟩
  rw [← hl]
  simp only [State.enqueuePq, hE]
  rw [hs]

/-! ## The thread's parts -/

/-- The command-queue-control action changes the command queue and its own pending bit only. -/
theorem cqControlStep_state (enable : Bool) (s : State) :
    ∃ q c, cqControlStep enable s = { s with cq := q, pending := { s.pending with cqControl := c } } := by
  unfold cqControlStep
  cases enable
  · exact ⟨_, _, rfl⟩
  · cases s.cq.state <;> exact ⟨_, _, rfl⟩

end Sys2Proof.Machine
end

