-- ==== Sys2Proof/Laws/PerInstr.lean ====
section
/-! SUPPORT. Statements for all commands, one lemma per constructor of `Instr`. -/

namespace Sys2Proof.Laws

/-- The low ten bits of an append with a ten-bit tail are that tail. -/
theorem low10_append (x : BitVec 54) (op : BitVec 10) : (x ++ op : Word).extractLsb' 0 10 = op := by
  apply BitVec.eq_of_getLsbD_eq
  intro i hi
  simp only [BitVec.getLsbD_extractLsb', BitVec.getLsbD_append, Nat.zero_add, hi, decide_true, Bool.true_and, if_true]

/-- Bits 9 to 0 of an encoded command's first dword are its `FUNC3` and `OPCODE` (30_encoding.md R160, R165). -/
def OpcodeBits.Statement (i : Instr) : Prop := (encode i).1.extractLsb' 0 10 = opcodeOf i

theorem OpcodeBits.iotinvalVma (av : Bool) (pscid : BitVec 20) (pscv gv : Bool) (gscid : BitVec 16) (addr : BitVec 52) :
    OpcodeBits.Statement (.iotinvalVma av pscid pscv gv gscid addr) := low10_append _ _

theorem OpcodeBits.iotinvalGvma (av : Bool) (pscid : BitVec 20) (pscv gv : Bool) (gscid : BitVec 16) (addr : BitVec 52) :
    OpcodeBits.Statement (.iotinvalGvma av pscid pscv gv gscid addr) := low10_append _ _

theorem OpcodeBits.iofenceC (av wsi pr pw : Bool) (data : BitVec 32) (addr : BitVec 62) :
    OpcodeBits.Statement (.iofenceC av wsi pr pw data addr) := low10_append _ _

theorem OpcodeBits.iodirInvalDdt (pid : BitVec 20) (dv : Bool) (did : BitVec 24) :
    OpcodeBits.Statement (.iodirInvalDdt pid dv did) := low10_append _ _

theorem OpcodeBits.iodirInvalPdt (pid : BitVec 20) (dv : Bool) (did : BitVec 24) :
    OpcodeBits.Statement (.iodirInvalPdt pid dv did) := low10_append _ _

theorem OpcodeBits.atsInval (pid : BitVec 20) (pv dsv : Bool) (rid : BitVec 16) (dseg : BitVec 8) (payload : Word) :
    OpcodeBits.Statement (.atsInval pid pv dsv rid dseg payload) := low10_append _ _

theorem OpcodeBits.atsPrgr (pid : BitVec 20) (pv dsv : Bool) (rid : BitVec 16) (dseg : BitVec 8) (payload : Word) :
    OpcodeBits.Statement (.atsPrgr pid pv dsv rid dseg payload) := low10_append _ _

end Sys2Proof.Laws
end

