-- ==== Sys2Proof/Laws/Requests.lean ====
section
/-! SUPPORT. What a step of a request can change: nothing of the command queue, the background thread, `ddtp`, the
parameters, the schedule; and how each phase ends. -/

namespace Sys2Proof.Machine

/-- The two states agree in everything a request never touches (10_state.md R62, 43_commands.md R360). -/
structure SameControl (s t : State) : Prop where
  params : t.params = s.params
  failing : t.failing = s.failing
  ddtp : t.ddtp = s.ddtp
  cq : t.cq = s.cq
  pending : t.pending = s.pending
  thread : t.thread = s.thread
  cmdLatches : t.cmdLatches = s.cmdLatches
  nextId : t.nextId = s.nextId
  schedule : t.schedule = s.schedule

namespace SameControl

theorem refl (s : State) : SameControl s s := ⟨rfl, rfl, rfl, rfl, rfl, rfl, rfl, rfl, rfl⟩

theorem trans {s t u : State} (h : SameControl s t) (k : SameControl t u) : SameControl s u :=
  ⟨k.params.trans h.params, k.failing.trans h.failing, k.ddtp.trans h.ddtp, k.cq.trans h.cq, k.pending.trans h.pending,
   k.thread.trans h.thread, k.cmdLatches.trans h.cmdLatches, k.nextId.trans h.nextId, k.schedule.trans h.schedule⟩

theorem emit (s : State) (o : Output) : SameControl s (s.emit o) := ⟨rfl, rfl, rfl, rfl, rfl, rfl, rfl, rfl, rfl⟩

/-- After the event and the access of a read. -/
theorem of_read {s t : State} {f : InFlight} {e : PerfEvent} {dir : Dir} {a : Word} {n : Nat} {ok : Bool}
    (h : SameControl ((s.event f e).logAccess dir a n ok) t) : SameControl s t :=
  ⟨h.params, h.failing, h.ddtp, h.cq, h.pending, h.thread, h.cmdLatches, h.nextId, h.schedule⟩

theorem goOn (s : State) (f : InFlight) (p : Progress) : SameControl s (s.goOn f p) :=
  ⟨rfl, rfl, rfl, rfl, rfl, rfl, rfl, rfl, rfl⟩

theorem conclude (s : State) (f : InFlight) (r : Result) : SameControl s (s.conclude f r) := .goOn _ _ _

theorem finish (s : State) (f : InFlight) (r : Result) : SameControl s (s.finish f r) :=
  ⟨rfl, rfl, rfl, rfl, rfl, rfl, rfl, rfl, rfl⟩

theorem memWrite {s t : State} {a : Word} {bs : List Byte} {ok : Bool} (h : s.memWrite a bs = (t, ok)) : SameControl s t := by
  rcases State.memWrite_cases h with ⟨-, -, rfl⟩ | ⟨-, -, rfl⟩ <;> exact ⟨rfl, rfl, rfl, rfl, rfl, rfl, rfl, rfl, rfl⟩

theorem enqueueFq (s : State) (rec : List Word) : SameControl s (s.enqueueFq rec) := by
  obtain ⟨q, mem, l, h, -⟩ := State.enqueueFq_state s rec
  rw [h]; exact ⟨rfl, rfl, rfl, rfl, rfl, rfl, rfl, rfl, rfl⟩

theorem enqueuePq (s : State) (rec : List Word) : SameControl s (s.enqueuePq rec) := by
  obtain ⟨q, mem, l, h, -⟩ := State.enqueuePq_state s rec
  rw [h]; exact ⟨rfl, rfl, rfl, rfl, rfl, rfl, rfl, rfl, rfl⟩

theorem reportContext (s : State) (r : Request) (c : Cause) (dtf : Bool) : SameControl s (s.reportContext r c dtf) := by
  unfold State.reportContext; split
  · exact refl s
  · exact enqueueFq s _

theorem reportTranslation (s : State) (r : Request) (ctx : Ctx) (c : Cause) (g : Word) :
    SameControl s (s.reportTranslation r ctx c g) := by
  unfold State.reportTranslation; split
  · split
    · exact enqueuePq s _
    · exact refl s
  · split
    · exact refl s
    · exact enqueueFq s _

end SameControl

/-- A context step touches none of it. -/
theorem ctxStep_sameControl (f : InFlight) (p : CtxPhase) (s : State) : SameControl s (ctxStep f p s) := by
  cases p <;> simp only [ctxStep]
  case lookup =>
    unfold ctxLookupStep
    generalize (if f.req.kind.isAts then PerfEvent.atsRq else PerfEvent.urq) = ev
    refine (SameControl.emit s (.event ev f.req.devid f.req.pid f.tags.1 f.tags.2)).trans ?_
    dsimp only
    split
    · split <;> exact .goOn _ _ _
    · exact .goOn _ _ _
  case makeRoom => unfold ctxMakeRoomStep; split <;> exact ⟨rfl, rfl, rfl, rfl, rfl, rfl, rfl, rfl, rfl⟩
  case walk =>
    unfold ctxWalkStep
    split
    · exact .goOn _ _ _
    · exact .goOn _ _ _
    · split <;> exact .goOn _ _ _
  case ddEntry =>
    dsimp only [ctxDdEntryStep]
    split <;> exact ⟨rfl, rfl, rfl, rfl, rfl, rfl, rfl, rfl, rfl⟩
  case ddLeaf =>
    dsimp only [ctxDdLeafStep, ctxContinue]
    split <;> exact ⟨rfl, rfl, rfl, rfl, rfl, rfl, rfl, rfl, rfl⟩
  case pdEntry =>
    dsimp only [ctxPdEntryStep]
    split <;> exact ⟨rfl, rfl, rfl, rfl, rfl, rfl, rfl, rfl, rfl⟩
  case pdLeaf =>
    dsimp only [ctxPdLeafStep, ctxContinue]
    split <;> exact ⟨rfl, rfl, rfl, rfl, rfl, rfl, rfl, rfl, rfl⟩
  case insert =>
    unfold ctxInsertStep
    split <;> exact ⟨rfl, rfl, rfl, rfl, rfl, rfl, rfl, rfl, rfl⟩
  case report => exact (SameControl.reportContext s _ _ _).trans (.conclude _ _ _)

theorem msiStart_sameControl (f : InFlight) (ctx : Ctx) (gpa data : Word) (size : AccessSize) (s : State) :
    SameControl s (msiStart f ctx gpa data size s) := by
  unfold msiStart xlateFail; split <;> exact .goOn _ _ _

theorem xlateFinish_sameControl (f : InFlight) (ctx : Ctx) (gpa spa m : Word) (p : Perm) (s : State) :
    SameControl s (xlateFinish f ctx gpa spa m p s) := by
  unfold xlateFinish; split
  · exact .conclude _ _ _
  · exact .goOn _ _ _

theorem xlateStage2_sameControl {f : InFlight} {ctx : Ctx} {gpa m : Word} {p : Perm} {s t : State}
    (h : xlateStage2 f ctx gpa m p s = .next t) : SameControl s t := by
  unfold xlateStage2 xlateFail at h
  split at h
  · split at h
    · cases h
    · split at h <;> cases h <;> exact .goOn _ _ _
  · cases h; exact xlateFinish_sameControl _ _ _ _ _ _ _

theorem xlateAfterStage1_sameControl {f : InFlight} {ctx : Ctx} {gpa m : Word} {p : Perm} {s t : State}
    (h : xlateAfterStage1 f ctx gpa m p s = .next t) : SameControl s t := by
  unfold xlateAfterStage1 at h
  split at h
  · split at h
    · cases h; exact msiStart_sameControl _ _ _ _ _ _
    · exact xlateStage2_sameControl h
  all_goals exact xlateStage2_sameControl h

theorem xlateStage1Entry_sameControl {f : InFlight} {ctx : Ctx} {w : WalkState} {s t : State}
    (h : xlateStage1Entry f ctx w s = .next t) : SameControl s t := by
  unfold xlateStage1Entry xlateFail at h
  split at h
  · split at h
    · cases h
    · split at h <;> cases h <;> exact .goOn _ _ _
  · cases h; exact .goOn _ _ _

theorem xlatePassThrough_sameControl (f : InFlight) (ctx : Ctx) (s : State) : SameControl s (xlatePassThrough f ctx s) := by
  unfold xlatePassThrough
  split
  · split
    · exact msiStart_sameControl _ _ _ _ _ _
    · exact .conclude _ _ _
  all_goals exact .conclude _ _ _

theorem xlateMiss_sameControl {f : InFlight} {ctx : Ctx} {s t : State} (h : xlateMiss f ctx s = .next t) :
    SameControl s t := by
  unfold xlateMiss at h
  refine SameControl.trans (t := s.event f .tlbMiss) (.emit s _) ?_
  dsimp only at h
  split at h
  · unfold xlateStage1 xlateFail at h
    split at h
    · cases h
    · split at h
      · exact xlateStage1Entry_sameControl h
      · cases h; exact .goOn _ _ _
  · split at h
    · exact xlateAfterStage1_sameControl h
    · cases h; exact xlatePassThrough_sameControl _ _ _

/-- A memory write and what follows it. -/
theorem memWrite_then_sameControl {s : State} {a : Word} {bs : List Byte} {fail done : State → State}
    (hf : ∀ u, SameControl u (fail u)) (hd : ∀ u, SameControl u (done u)) :
    SameControl s (match s.memWrite a bs with | (s1, false) => fail s1 | (s1, true) => done s1) := by
  rcases hm : s.memWrite a bs with ⟨s1, ok⟩
  cases ok
  · exact (SameControl.memWrite hm).trans (hf s1)
  · exact (SameControl.memWrite hm).trans (hd s1)

/-- A translation step touches none of it. -/
theorem xlateStep_sameControl {f : InFlight} {ctx : Ctx} {p : XlatePhase} {s t : State} (h : xlateStep f ctx p s = .next t) :
    SameControl s t := by
  cases p <;> simp only [xlateStep] at h
  case lookup =>
    unfold xlateLookupStep at h
    split at h
    · cases h; exact .conclude _ _ _
    · split at h
      · split at h
        · cases h; exact .conclude _ _ _
        · exact xlateMiss_sameControl h
      · exact xlateMiss_sameControl h
  case sWalk =>
    dsimp only [xlateSWalkStep, xlateFail] at h
    split at h
    · cases h; exact ⟨rfl, rfl, rfl, rfl, rfl, rfl, rfl, rfl, rfl⟩
    · split at h
      · cases h; exact ⟨rfl, rfl, rfl, rfl, rfl, rfl, rfl, rfl, rfl⟩
      · exact SameControl.of_read (xlateStage1Entry_sameControl h)
      · exact SameControl.of_read (xlateAfterStage1_sameControl h)
  case sImplicit =>
    cases h
    dsimp only [xlateSImplicitStep, xlateFail]
    split
    · exact ⟨rfl, rfl, rfl, rfl, rfl, rfl, rfl, rfl, rfl⟩
    · split <;> exact ⟨rfl, rfl, rfl, rfl, rfl, rfl, rfl, rfl, rfl⟩
  case gWalk =>
    cases h
    dsimp only [xlateGWalkStep, xlateFail]
    split
    · exact ⟨rfl, rfl, rfl, rfl, rfl, rfl, rfl, rfl, rfl⟩
    · split
      · exact ⟨rfl, rfl, rfl, rfl, rfl, rfl, rfl, rfl, rfl⟩
      · exact ⟨rfl, rfl, rfl, rfl, rfl, rfl, rfl, rfl, rfl⟩
      · exact SameControl.of_read (xlateFinish_sameControl _ _ _ _ _ _ _)
  case msiPte =>
    cases h
    dsimp only [msiPteStep, xlateFail]
    split <;> exact ⟨rfl, rfl, rfl, rfl, rfl, rfl, rfl, rfl, rfl⟩
  case msiForward =>
    cases h; exact memWrite_then_sameControl (fun _ => .goOn _ _ _) (fun _ => .conclude _ _ _)
  case mrifPendingRead =>
    cases h
    dsimp only [mrifPendingReadStep, xlateFail]
    split <;> exact ⟨rfl, rfl, rfl, rfl, rfl, rfl, rfl, rfl, rfl⟩
  case mrifPendingWrite =>
    cases h; exact memWrite_then_sameControl (fun _ => .goOn _ _ _) (fun _ => .goOn _ _ _)
  case mrifEnable =>
    cases h
    dsimp only [mrifEnableStep, xlateFail]
    split
    · exact ⟨rfl, rfl, rfl, rfl, rfl, rfl, rfl, rfl, rfl⟩
    · split <;> exact ⟨rfl, rfl, rfl, rfl, rfl, rfl, rfl, rfl, rfl⟩
  case mrifNotice =>
    cases h; exact memWrite_then_sameControl (fun _ => .goOn _ _ _) (fun _ => .conclude _ _ _)
  case tlbRoom =>
    cases h
    unfold xlateMakeRoomStep
    split
    · exact .conclude _ _ _
    · split <;> exact ⟨rfl, rfl, rfl, rfl, rfl, rfl, rfl, rfl, rfl⟩
  case tlbInsert =>
    cases h
    dsimp only [xlateInsertStep]
    split <;> exact ⟨rfl, rfl, rfl, rfl, rfl, rfl, rfl, rfl, rfl⟩
  case report =>
    cases h; exact (SameControl.reportTranslation s _ _ _ _).trans (.conclude _ _ _)

/-- A step of a request leaves the command queue, the thread, `ddtp`, the parameters and the schedule as they are. -/
theorem requestStep_sameControl {f : InFlight} {s t : State} (h : requestStep f s = .next t) : SameControl s t := by
  unfold requestStep at h
  split at h
  · cases h; exact ctxStep_sameControl _ _ _
  · exact xlateStep_sameControl h
  · cases h; exact .finish _ _ _

theorem advance_sameControl {id : Nat} {s t : State} (h : advance id s = .next t) : SameControl s t := by
  unfold advance at h
  split at h
  · exact requestStep_sameControl h
  · cases h; exact .refl s

end Sys2Proof.Machine
end

