-- ==== Sys2Proof/Tests/Slice0.lean ====
section
/-! SUPPORT. Small tests, and for each statement with hypotheses a witness that meets them (`test_witness_…`). The
expected values come from 95_test_vectors.md and from the examples inside the rules, named in each docstring. -/

open Sys2Proof Sys2Proof.Machine

namespace Sys2Proof.Tests

/-! One proof after another: many kernel evaluations at once ask for more threads than the memory limit allows. -/
set_option Elab.async false

/-! ## Helpers -/

/-- The outcome is a next state that satisfies `p`. -/
def nextIs (o : Host.Outcome State Fault Refusal) (p : State → Bool) : Bool :=
  match o with
  | .next t => p t
  | .fault _ => false
  | .refused _ => false

/-- An outcome that is a next state with a property is one. -/
theorem next_of_nextIs {o : Host.Outcome State Fault Refusal} {p : State → Bool} (h : nextIs o p = true) :
    ∃ t, o = .next t ∧ p t = true := by
  cases o with
  | next t => exact ⟨t, rfl, h⟩
  | fault _ => cases h
  | refused _ => cases h

/-- A running command queue with one command, both record queues active, the thread inside the command loop. -/
def running : State :=
  { State.reset with
    cq := { CmdQueue.reset with state := .on, tail := 1, base := 0x8000 }
    fq := { RecQueue.reset with active := true, size := 4, base := 0x4000 }
    pq := { RecQueue.reset with active := true, size := 4, base := 0x6000 }
    thread := .commands }

/-- Three IOTLB entries and three context-cache entries. -/
def caches : State :=
  { running with
    iotlb := running.iotlb.setEntries
      [{ gscid := 5, pscid := 7, vpn := 2, ppn := 9, perm := Perm.rw, valid := true },
       { gscid := 5, pscid := 8, vpn := 2, ppn := 9, perm := Perm.rw, valid := true },
       { gscid := 6, pscid := 7, vpn := 2, ppn := 9, perm := Perm.rw, valid := true }]
    ctxCache := running.ctxCache.setEntries
      [{ ctx := bareCtx 3 5, valid := true }, { ctx := bareCtx 3 6, valid := true }, { ctx := bareCtx 4 5, valid := true }] }

/-- Which entries are valid. -/
def tlbValid (t : State) : List Bool := t.iotlb.current.entries.map (·.valid)
/-- Which contexts are valid. -/
def ctxValid (t : State) : List Bool := t.ctxCache.current.entries.map (·.valid)

/-- Everything fails. -/
def nothingWorks : List FailRange := [{ lo := 0, hi := 2 ^ 64 - 1, onRead := true, onWrite := true }]

/-- Request 0, of device 3, at a place. -/
def request (kind : ReqKind) (p : Progress) : InFlight :=
  { id := 0, req := { devid := 3, pid := 0, iova := 0x2000, kind }, ctxGen := some 0, tlbGen := some 0, progress := p, latches := [] }

/-- The running state with request 0 in flight. -/
def inFlight (kind : ReqKind) (p : Progress) : State := { running with inflight := [request kind p], nextId := 1 }

/-- A context with Sv39 and Sv39x4, ATS enabled, GSCID 5, PSCID 7 and an MSI filter (42_msi.md R343). -/
def ctx0 : Ctx :=
  { bareCtx 3 0 with tc := 3, gatp := 0x8000500000000200, satp := 0x8000000000000010, ta := 0x7000, msiptp := 0x1000000000000050,
                     msiAddrMask := 7, msiAddrPattern := 0x28000 }

/-- A walk at the root of an Sv39 table, and one at the root of an Sv39x4 table. -/
def walkS : WalkState :=
  startWalk .s { levels := 3, indexBits := 9, rootBits := 0, pteBytes := 8, width := 39 } 0x10 0x2000 (lowMask 64) Perm.rw
def walkG : WalkState :=
  startWalk .g { levels := 3, indexBits := 9, rootBits := 2, pteBytes := 8, width := 41 } 0x200 0x2000 (lowMask 64) Perm.rw

/-! ## Well-formedness -/

/-- 30_encoding.md R166: IOTINVAL.GVMA with PSCV. -/
theorem test_wf_refuses_gvma_pscv : Instr.wf (.iotinvalGvma false 0 true true 5 0) = false := by decide
/-- 30_encoding.md R166: IODIR.INVAL_PDT without DV. -/
theorem test_wf_refuses_pdt_without_dv : Instr.wf (.iodirInvalPdt 5 false 3) = false := by decide
theorem test_wf_allows : Instr.wf (.iotinvalGvma true 1 false true 5 2) = true ∧ Instr.wf (.iodirInvalPdt 5 true 3) = true ∧
    Instr.wf (.atsInval 5 true false 0x100 0 0) = true := by decide

/-! ## Decoding: words written out from 30_encoding.md R161 to R165 -/

/-- R361's example: dword 0 is GSCID 5 at 44, GV at 33, PSCV at 32, PSCID 7 at 12, AV at 10, 0x001; dword 1 is 2 at 10. -/
theorem test_decode_iotinvalVma :
    decodeTableWord 128 (5 * 2 ^ 44 + 2 ^ 33 + 2 ^ 32 + 7 * 2 ^ 12 + 2 ^ 10 + 1 + 2 * 2 ^ 10 * 2 ^ 64) =
      some (.iotinvalVma true 7 true true 5 2) := by decide +kernel
/-- R362's example. -/
theorem test_decode_iotinvalGvma : decodeTableWord 64 0x0000500200000081 = some (.iotinvalGvma false 0 false true 5 0) := by decide +kernel
/-- R375's example, and every flag and the top bit of each field. -/
theorem test_decode_iofenceC :
    decodeTableWord 128 (0x0000123400000402 + 0x2400 * 2 ^ 64) = some (.iofenceC true false false false 0x1234 0x2400) ∧
    decodeTableWord 128 (2 ^ 63 + 2 ^ 13 + 2 ^ 12 + 2 ^ 11 + 2 + 2 ^ 61 * 2 ^ 64) =
      some (.iofenceC false true true true 0x80000000 0x2000000000000000) := by decide +kernel
/-- R380's example. -/
theorem test_decode_iodirInvalDdt : decodeTableWord 64 0x0000030200000003 = some (.iodirInvalDdt 0 true 3) := by decide +kernel
/-- R381's example. -/
theorem test_decode_iodirInvalPdt : decodeTableWord 64 0x0000030200005083 = some (.iodirInvalPdt 5 true 3) := by decide +kernel
/-- R385's example. -/
theorem test_decode_atsInval :
    decodeTableWord 128 (0x0001000100005004 + 0x7000 * 2 ^ 64) = some (.atsInval 5 true false 0x100 0 0x7000) := by decide +kernel
/-- R386's example. -/
theorem test_decode_atsPrgr :
    decodeTableWord 128 (0x0101000200000084 + 2 ^ 64) = some (.atsPrgr 0 false true 0x100 1 1) := by decide +kernel
/-- 30_encoding.md R166: an OPCODE and a FUNC3 that are not in the table. -/
theorem test_decode_rejects : decodeTableWord 128 0x005 = none ∧ decodeTableWord 128 0x101 = none ∧ decodeTableWord 128 0x102 = none := by
  decide +kernel

/-! ## Commands: the vectors of 95_test_vectors.md 2.6, one step each -/

/-- V-CMD4. -/
theorem test_iotinvalVma_exact :
    nextIs (step (caches.withFetchWord 128 (0x0000500300007401 + 0x800 * 2 ^ 64)))
      (fun t => tlbValid t = [false, true, true] && t.cq.head = 1) = true := by decide +kernel
/-- 43_commands.md R361, the first corner case: without GV everything. -/
theorem test_iotinvalVma_all :
    nextIs (step (caches.withFetchWord 128 0x0000000100007001)) (fun t => tlbValid t = [false, false, false]) = true := by decide +kernel
/-- V-CMD7. -/
theorem test_iotinvalGvma_gscid :
    nextIs (step (caches.withFetchWord 128 0x0000500200000081)) (fun t => tlbValid t = [false, false, true]) = true := by decide +kernel
/-- V-CMD8: PSCV is illegal, the head stays. -/
theorem test_iotinvalGvma_illegal :
    nextIs (step (caches.withFetchWord 128 0x0000000100000081))
      (fun t => t.cq.cmdIll && t.cq.head = 0 && tlbValid t = [true, true, true] && t.trace.head? = some (.signal .cq)) = true := by
  decide +kernel
/-- V-CMD9: the value 0x1234 at 0x9000. -/
theorem test_iofenceC_write :
    nextIs (step (caches.withFetchWord 128 (0x0000123400000402 + 0x2400 * 2 ^ 64)))
      (fun t => t.mem.word32 0x9000 = 0x1234 && t.mem.at 0x9000 = 0x34 && t.cq.head = 1 && !t.cq.fenceWIp) = true := by decide +kernel
/-- V-CMD10: the interrupt alone. -/
theorem test_iofenceC_interrupt :
    nextIs (step (caches.withFetchWord 128 0x802)) (fun t => t.cq.fenceWIp && t.cq.head = 1 && t.trace.head? = some (.signal .cq)) = true := by
  decide +kernel
/-- V-CMD15. -/
theorem test_iodirInvalDdt_device :
    nextIs (step (caches.withFetchWord 128 0x0000030200000003)) (fun t => ctxValid t = [false, false, true]) = true := by decide +kernel
/-- V-CMD14. -/
theorem test_iodirInvalDdt_all :
    nextIs (step (caches.withFetchWord 128 3)) (fun t => ctxValid t = [false, false, false]) = true := by decide +kernel
/-- V-CMD16. -/
theorem test_iodirInvalPdt_process :
    nextIs (step (caches.withFetchWord 128 0x0000030200005083)) (fun t => ctxValid t = [false, true, true]) = true := by decide +kernel
/-- V-CMD17: without DV illegal. -/
theorem test_iodirInvalPdt_illegal :
    nextIs (step (caches.withFetchWord 128 0x5083)) (fun t => t.cq.cmdIll && ctxValid t = [true, true, true]) = true := by decide +kernel
/-- V-CMD19. -/
theorem test_atsInval_event :
    nextIs (step (caches.withFetchWord 128 (0x0001000100005004 + 0x7000 * 2 ^ 64)))
      (fun t => t.trace.head? = some (.atsEvent .inval 0x000100 5 0x7000) && t.cq.head = 1) = true := by decide +kernel
/-- V-CMD20. -/
theorem test_atsPrgr_event :
    nextIs (step (caches.withFetchWord 128 (0x0101000200000084 + 2 ^ 64)))
      (fun t => t.trace.head? = some (.atsEvent .prgr 0x010100 0 1)) = true := by decide +kernel
/-- V-CMD22: an unknown command stops the queue. -/
theorem test_unknown_command :
    nextIs (step (caches.withFetchWord 128 5)) (fun t => t.cq.cmdIll && t.cq.head = 0) = true := by decide +kernel

/-! ## Requests -/

/-- 40_context.md R230, the source's Scenario B: device 3's context is not valid. -/
theorem test_scenario_b_cause :
    nextIs (requestStep (request .read (.resolving (.ddLeaf 0x100000))) (inFlight .read (.resolving (.ddLeaf 0x100000))))
      (fun t => t.progressOf 0 = some (.resolving (.report .ddtInvalid false))) = true := by decide +kernel
/-- 95_test_vectors.md X2: the record's first dword. -/
theorem test_scenario_b_record :
    faultHeader .ddtInvalid { devid := 3, pid := 0, iova := 0x1000, kind := .read } = 0x0000030800000102 := by decide +kernel
/-- 42_msi.md R343, the source's Scenario D: the filter matches, the interrupt file is 3. -/
theorem test_scenario_d_filter : msiMatch ctx0 0x28003000 = true ∧ msiIfn ctx0 0x28003000 = 3 ∧ msiMatch ctx0 0x28008000 = false := by
  decide +kernel
/-- 42_msi.md R343 and R344: where the two entries lead. -/
theorem test_scenario_d_entries :
    msiEntry Params.suggested.cap 0x2A 0x28003000 (some [0x0000000004000007, 0]) = .forward 0x10000000 ∧
    msiEntry Params.suggested.cap 70 0x28003000 (some [0x0000000000180003, 0x1000000000800005]) = .mrif 0x600010 70 0x1000000000800005 ∧
    noticeId 0x1000000000800005 = 0x405 ∧ noticeAddr 0x1000000000800005 = 0x2000000 ∧
    msiEntry Params.suggested.cap 2048 0x28003000 (some [0x0000000000180003, 0]) = .fail .msiPteMisconfigured := by decide +kernel

/-! ## Witnesses: for each statement with hypotheses, states and operands that meet them, clause by clause -/

/-- The top completion address, without a write, with one, and with one that fails. -/
theorem test_witness_FenceStoresOnlyItsBytes :
    let bad : State := { running with failing := nothingWorks }
    running.mem.WF ∧ bad.mem.WF ∧
    (∃ t, exec (.iofenceC false true true true 1 0x3FFFFFFFFFFFFFFF) running = .next t ∧ (t.mem = running.mem : Bool) = true) ∧
    (∃ t, exec (.iofenceC true true true true 1 0x3FFFFFFFFFFFFFFF) running = .next t ∧
      (!accessFails running.failing .write (iofenceAddress 0x3FFFFFFFFFFFFFFF) 4) = true) ∧
    (∃ t, exec (.iofenceC true true true true 1 0x3FFFFFFFFFFFFFFF) bad = .next t ∧
      accessFails bad.failing .write (iofenceAddress 0x3FFFFFFFFFFFFFFF) 4 = true) :=
  ⟨by decide, by decide, next_of_nextIs (p := fun t => t.mem = running.mem) (by decide +kernel),
    next_of_nextIs (p := fun _ => !accessFails running.failing .write (iofenceAddress 0x3FFFFFFFFFFFFFFF) 4) (by decide +kernel),
    next_of_nextIs (p := fun _ => accessFails nothingWorks .write (iofenceAddress 0x3FFFFFFFFFFFFFFF) 4) (by decide +kernel)⟩

theorem test_witness_VmaInvalidatesExactlyItsScope :
    (∃ t, exec (.iotinvalVma true 7 true true 5 2) caches = .next t) ∧ (caches.tlbEntry 5 7 2).isSome = true ∧
    (∃ t, exec (.iotinvalVma true 7 true true 5 0xFFFFFFFFFFFFF) caches = .next t) ∧ caches.tlbEntry 5 7 0xFFFFFFFFFFFFF = none :=
  ⟨⟨_, rfl⟩, by decide, ⟨_, rfl⟩, by decide⟩

theorem test_witness_IodirInvalidatesExactlyItsScope :
    (∃ t, exec (.iodirInvalDdt 0 true 3) caches = .next t) ∧ (∃ t, exec (.iodirInvalPdt 5 true 3) caches = .next t) ∧
    (∃ t, exec (.iodirInvalPdt 5 false 3) caches = .next t) ∧ (caches.ctxEntry 3 5).isSome = true :=
  ⟨⟨_, rfl⟩, ⟨_, rfl⟩, ⟨_, rfl⟩, by decide⟩

theorem test_witness_CommandFrame :
    (∃ t, exec (.iofenceC true true false false 1 0) caches = .next t) ∧ (∃ t, exec (.iotinvalVma false 0 false false 0 0) caches = .next t) ∧
    (∃ t, exec (.iodirInvalDdt 0 false 0) caches = .next t) ∧ (∃ t, exec (.atsInval 0 false false 0 0 0) caches = .next t) :=
  ⟨⟨_, rfl⟩, ⟨_, rfl⟩, ⟨_, rfl⟩, ⟨_, rfl⟩⟩

/-- Every reserved bit of R361's example set. -/
theorem test_witness_ReservedBitsIgnored :
    decode 0xF0005FFF00007C01 0xC000000000000BFF = .instr (.iotinvalVma true 7 true true 5 2) := by decide +kernel

/-- With the command in the schedule's next move, and with an empty schedule, at the last entry of the ring; with the
first dword read early; and the early read of each dword, and of one that the command has not. -/
theorem test_witness_StepRunsDecodedCommand :
    let s : State := { running with schedule := [.thread], mem := running.mem.store 0x8010 [3], cq := { running.cq with head := 1, tail := 0 } }
    let early : State := { s with cmdLatches := [{ addr := 0x8010, value := some 0x81 }] }
    s.schedule = .thread :: [] ∧ { s with schedule := [] }.schedule = [] ∧ s.thread = .commands ∧ s.cmdLatches = [] ∧ s.cq.state = .on ∧
    s.cq.cmdIll = false ∧ s.cq.cmdMf = false ∧ s.cq.tail ≠ s.cq.head ∧
    accessFails s.failing .read (s.cq.base + BitVec.ofNat 64 (s.cq.head * 16)) 16 = false ∧
    decodeBytes ((List.range 16).map fun k => s.mem.at (s.cq.base + BitVec.ofNat 64 (s.cq.head * 16) + BitVec.ofNat 64 k)) =
      .instr (.iodirInvalDdt 0 false 0) ∧
    earlyOrNow early early.cmdLatches 0x8010 = some 0x81 ∧ earlyOrNow early early.cmdLatches 0x8018 = some 0 ∧
    decodeBytes (leDwords [0x81, 0]) = .instr (.iotinvalGvma false 0 false false 0 0) ∧
    (∀ k ∈ [0, 1], nextIs (step { s with schedule := [.latchCommand k] }) (fun t => t.cmdLatches.length = 1) = true) ∧
    nextIs (step { s with schedule := [.latchCommand 2] }) (fun t => t.cmdLatches = []) = true := by decide +kernel

/-- An unknown command; a failing read of memory; and a failed early read of the second dword. -/
theorem test_witness_CommandLoopStops :
    let s : State := { running with schedule := [.thread] }
    let bad : State := { s with failing := nothingWorks }
    let early : State := { s with cmdLatches := [{ addr := 0x8008, value := none }] }
    s.thread = .commands ∧ s.cq.state = .on ∧ s.cq.cmdIll = false ∧ s.cq.cmdMf = false ∧ s.cq.tail ≠ s.cq.head ∧
    earlyOrNow s s.cmdLatches 0x8000 = some 0 ∧ earlyOrNow s s.cmdLatches 0x8008 = some 0 ∧
    (0 : Word).extractLsb' 0 10 ∉ [0x001#10, 0x081#10, 0x002#10, 0x003#10, 0x083#10, 0x004#10, 0x084#10] ∧
    earlyOrNow bad bad.cmdLatches 0x8000 = none ∧ earlyOrNow early early.cmdLatches 0x8008 = none := by decide +kernel

/-- The four ways in which the loop does not run. -/
theorem test_witness_StoppedQueueReadsNothing :
    let cq := running.cq
    ∀ s ∈ [{ cq with state := .enabling }, { cq with cmdIll := true }, { cq with cmdMf := true }, { cq with tail := 0 }].map
        (fun q => ({ running with schedule := [.thread], cq := q } : State)),
      s.schedule = .thread :: [] ∧ s.thread = .commands ∧
      (s.cq.state ≠ .on ∨ s.cq.cmdIll = true ∨ s.cq.cmdMf = true ∨ s.cq.tail = s.cq.head) := by decide +kernel


/-- The head moves in a move of the thread; a request, an early read and a step of a request make moves. -/
theorem test_witness_OnlyTheThreadAdvancesCqHead :
    nextIs (perform .thread (caches.withFetchWord 128 3)) (fun t => t.cq.head != 0) = true ∧
    (∃ t, perform (.request 3 0 0 .read) running = .next t) ∧ (∃ t, perform (.advance 0) running = .next t) ∧
    (∃ t, perform (.latch 0 0) running = .next t) :=
  ⟨by decide +kernel, ⟨_, rfl⟩, ⟨_, rfl⟩, ⟨_, rfl⟩⟩

/-- Each of the six bits set before and clear after, by software and by the enabling of a queue that is off. -/
theorem test_witness_StatusBitsAreSticky :
    let on (q : RecQueue) : RecQueue := { q with overflow := true, memFault := true }
    let s : State := { running with cq := { running.cq with cmdIll := true, cmdMf := true }, fq := on running.fq, pq := on running.pq }
    let off : State := { s with cq := { s.cq with state := .disabled }, fq := { s.fq with active := false }, pq := { s.pq with active := false },
                                thread := .idle }
    nextIs (perform (.software (.clearCq true true false)) s) (fun t => !t.cq.cmdIll && !t.cq.cmdMf) = true ∧
    nextIs (perform (.software (.clearFq true true false)) s) (fun t => !t.fq.overflow && !t.fq.memFault) = true ∧
    nextIs (perform (.software (.clearPq true true false)) s) (fun t => !t.pq.overflow && !t.pq.memFault) = true ∧
    nextIs (perform .thread { off with pending := { off.pending with cqControl := some true } })
      (fun t => !t.cq.cmdIll && !t.cq.cmdMf && t.cq.state = .enabling) = true ∧
    nextIs (perform .thread { off with pending := { off.pending with fqControl := some true } })
      (fun t => !t.fq.overflow && !t.fq.memFault && t.fq.active) = true ∧
    nextIs (perform .thread { off with pending := { off.pending with pqControl := some true } })
      (fun t => !t.pq.overflow && !t.pq.memFault && t.pq.active) = true := by decide +kernel

/-- One pending action of each kind, the higher ones absent. -/
theorem test_witness_ActionPriority :
    let s (p : Pending) : State := { State.reset with schedule := [.thread], pending := p }
    (∀ p ∈ [{ Pending.none with ddtp := some { mode := .lvl1, ppn := 1 } }, { Pending.none with cqControl := some false },
        { Pending.none with cqTail := true }, { Pending.none with fqControl := some true }, { Pending.none with pqControl := some true },
        { Pending.none with debug := true }, Pending.none],
      (s p).schedule = .thread :: [] ∧ (s p).thread = .idle) ∧
    (s { Pending.none with pqControl := some true }).pending.pqControl = some true ∧
    (s { Pending.none with pqControl := some true }).pending.ddtp = none ∧
    (s { Pending.none with pqControl := some true }).pending.cqControl = none ∧
    (s { Pending.none with pqControl := some true }).pending.cqTail = false ∧
    (s { Pending.none with pqControl := some true }).pending.fqControl = none := by decide +kernel


theorem test_witness_DdtpChangesOnlyAsynchronously :
    let s : State := { State.reset with pending := { Pending.none with ddtp := some { mode := .lvl3, ppn := 0x100 } } }
    nextIs (perform .thread s) (fun t => t.ddtp != s.ddtp) = true := by decide +kernel

theorem test_witness_QueueControl :
    let s (p : Pending) : State := { State.reset with pending := p }
    (∀ e ∈ [true, false], (s { Pending.none with cqControl := some e }).thread = .idle ∧
      (s { Pending.none with cqControl := some e }).pending.ddtp = none ∧
      (s { Pending.none with cqControl := some e }).pending.cqControl = some e ∧
      (s { Pending.none with cqControl := some e }).cq.state = .disabled) ∧
    RecQueue.reset.active = false ∧
    (∀ e ∈ [true, false], ∀ p ∈ [{ Pending.none with fqControl := some e }, { Pending.none with pqControl := some e }],
      (s p).thread = .idle ∧ (s p).pending.ddtp = none ∧ (s p).pending.cqControl = none ∧ (s p).pending.cqTail = false ∧
      ((s p).pending.fqControl = some e ∨ ((s p).pending.fqControl = none ∧ (s p).pending.pqControl = some e))) := by decide +kernel


/-- A request that goes on, and one that has its result; a move of the thread, of software and of another request while
it is in flight; an early read of each structure, and of none; a read of two dwords. -/
theorem test_witness_StepRunsTheRequest :
    let s : State := { inFlight .read (.resolving .lookup) with schedule := [.advance 0] }
    let two : State := { s with inflight := s.inflight ++ [{ request .read (.resolving .lookup) with id := 1 }] }
    s.schedule = .advance 0 :: [] ∧ s.lookupInflight 0 = some (request .read (.resolving .lookup)) ∧
    (request .read (.ending (.fault .ddtInvalid))).progress = .ending (.fault .ddtInvalid) ∧
    (∀ m ∈ [Move.thread, .software (.writeCqTail 0), .advance 1], nextIs (perform m two) (fun _ => true) = true ∧ m ≠ .realize) ∧
    (∀ p ∈ [Progress.resolving (.ddLeaf 0x1000), .resolving (.pdLeaf ctx0 0x1000), .translating ctx0 (.msiPte 0x28003000 3 0 .b4)],
      nextIs (step { inFlight .read p with schedule := [.latch 0 1] })
        (fun t => t.inflight.map (fun f => f.latches.length) = [1]) = true) ∧
    nextIs (step { s with schedule := [.latch 0 1] }) (fun t => t.inflight.map (fun f => f.latches.length) = [0]) = true ∧
    s.readDwords [{ addr := 0x1008, value := some 7 }] 0x1000 2 = some [0, 7] := by decide +kernel

/-- 20_memory.md R93, 43_commands.md R378: a request that hit an IOTLB entry returns it after the entry has been
invalidated, whichever way. -/
theorem test_stale_hit_completes :
    let s : State := { (caches.withFetchWord 128 1) with
      inflight := [{ request .read (.translating { bareCtx 3 0 with gatp := 0x8000500000000000, ta := 0x7000 } .lookup) with id := 0 }], nextId := 1 }
    nextIs (advance 0 s) (fun h => h.progressOf 0 = some (.ending (.ok 0x9000 0xFFF Perm.rw)) &&
      nextIs (perform .thread h) (fun u => tlbValid u = [false, false, false] &&
        nextIs (advance 0 u) (fun t => t.trace.head? = some (.result 0 (.ok 0x9000 0xFFF Perm.rw))))) = true := by decide +kernel

theorem test_witness_ContextLookup : (request .read (.resolving .lookup)).progress = .resolving .lookup := rfl

/-- A generation that is full, and one with room; then the sample of `ddtp`. -/
theorem test_witness_ContextMiss :
    let s := inFlight .ats (.resolving .makeRoom)
    let full : State := { caches with params := { caches.params with ctxCacheCapacity := 3 }, inflight := s.inflight }
    (request .ats (.resolving .makeRoom)).progress = .resolving .makeRoom ∧ (request .ats (.resolving .walk)).progress = .resolving .walk ∧
    s.lookupInflight 0 = some (request .ats (.resolving .makeRoom)) ∧ full.lookupInflight 0 = some (request .ats (.resolving .makeRoom)) ∧
    ¬ s.params.ctxCacheCapacity ≤ s.ctxCache.current.entries.length ∧
    full.params.ctxCacheCapacity ≤ full.ctxCache.current.entries.length ∧
    (inFlight .ats (.resolving .walk)).lookupInflight 0 = some (request .ats (.resolving .walk)) := by decide +kernel

theorem test_witness_DirectoryIndices :
    Params.suggested.cap.msiFlat = true ∧
    { Params.suggested with cap := { Params.suggested.cap with msiFlat := false } }.cap.msiFlat = false := by decide

theorem test_witness_DirectoryEntryChecks :
    (request .read (.resolving (.ddEntry 2 0x100000))).progress = .resolving (.ddEntry 2 0x100000) ∧
    (request .read (.resolving (.pdEntry ctx0 1 0x300000))).progress = .resolving (.pdEntry ctx0 1 0x300000) := ⟨rfl, rfl⟩

/-- `tc.V` clear; valid with the highest reserved bit, and with the lowest; valid and well formed; the base format. -/
theorem test_witness_DeviceContextChecks :
    (request .read (.resolving (.ddLeaf 0x100000))).progress = .resolving (.ddLeaf 0x100000) ∧ (0x10 : Word).getLsbD 0 = false ∧
    ((0x8000000000000001 : Word).getLsbD 0 = true ∧ dcBad Params.suggested (0x8000000000000001) 0 0 0) ∧
    ((0x1001 : Word).getLsbD 0 = true ∧ dcBad Params.suggested (0x1001) 0 0 0) ∧
    ((1 : Word).getLsbD 0 = true ∧ ¬ dcBad Params.suggested 1 0 0 0) ∧
    { Params.suggested with cap := { Params.suggested.cap with msiFlat := false } }.cap.msiFlat = false := by
  refine ⟨rfl, by decide, ⟨by decide +kernel, .inl ⟨63, by decide +kernel⟩⟩, ⟨by decide +kernel, .inl ⟨12, by decide +kernel⟩⟩, ⟨by decide, ?_⟩, by decide⟩
  rintro (⟨i, h, h64, -, hi⟩ | h | h | h | h | h | h)
  · exact absurd hi ((by decide +kernel : ∀ i < 64, 12 ≤ i → ¬ (1 : Word).getLsbD i = true) i h64 h)
  · exact absurd h (by decide)
  · exact h (.inl (by decide))
  · exact h.2 (.inl (by decide))
  · exact absurd h.1 (by decide)
  · exact h (.inl (by decide))
  · exact absurd h.1 (by decide)

/-- A device context with a three-level process directory. -/
theorem test_witness_ProcessSelection :
    (0x21 : Word).getLsbD 5 = true ∧ pdModeListed Params.suggested.cap ((0x3000000000000300 : Word).extractLsb' 60 4) :=
  ⟨by decide, .inr (.inr (.inr (by decide)))⟩

/-- `ta.V` clear; valid with a reserved bit at each end of each range; valid and well formed. -/
theorem test_witness_ProcessContextChecks :
    (request .read (.resolving (.pdLeaf ctx0 0x100000))).progress = .resolving (.pdLeaf ctx0 0x100000) ∧ (0x8 : Word).getLsbD 0 = false ∧
    (∀ v ∈ ([9, 0x801, 0x100000001, 0x8000000000000001] : List Word), v.getLsbD 0 = true ∧
      ∃ i, ((3 ≤ i ∧ i < 12) ∨ (32 ≤ i ∧ i < 64)) ∧ v.getLsbD i = true) ∧
    ((0x9001 : Word).getLsbD 0 = true ∧
      ¬ ((∃ i, ((3 ≤ i ∧ i < 12) ∨ (32 ≤ i ∧ i < 64)) ∧ (0x9001 : Word).getLsbD i = true) ∨
        ¬ sModeListed Params.suggested.cap false ((0x8000000000000010 : Word).extractLsb' 60 4))) := by
  refine ⟨rfl, by decide, ?_, by decide, ?_⟩
  · intro v hv
    simp only [List.mem_cons, List.not_mem_nil, or_false] at hv
    rcases hv with rfl | rfl | rfl | rfl
    · exact ⟨by decide, 3, by decide +kernel⟩
    · exact ⟨by decide +kernel, 11, by decide +kernel⟩
    · exact ⟨by decide +kernel, 32, by decide +kernel⟩
    · exact ⟨by decide +kernel, 63, by decide +kernel⟩
  · rintro (⟨i, hr, hi⟩ | h)
    · exact absurd hi ((by decide +kernel : ∀ i < 64, ((3 ≤ i ∧ i < 12) ∨ (32 ≤ i ∧ i < 64)) → ¬ (0x9001 : Word).getLsbD i = true) i (by omega) hr)
    · exact h (.inr (.inl (by decide)))

/-- The generation pinned is current; it is not. -/
theorem test_witness_ContextInsertion :
    let f := request .read (.resolving (.insert ctx0))
    let s := inFlight .read (.resolving (.insert ctx0))
    f.progress = .resolving (.insert ctx0) ∧ s.lookupInflight f.id = some f ∧ f.ctxGen = some s.ctxCache.current.number ∧
    f.ctxGen ≠ some { s with ctxCache := s.ctxCache.replace }.ctxCache.current.number := by decide +kernel

theorem test_witness_FailureReport :
    (request .read (.resolving (.report .ddtInvalid true))).progress = .resolving (.report .ddtInvalid true) ∧
    (request .read (.translating ctx0 (.report .readPageFault 0))).progress = .translating ctx0 (.report .readPageFault 0) ∧
    (request .read (.resolving .lookup)).req.kind ≠ .ats ∧ (request .ats (.resolving .lookup)).req.kind = .ats := by decide +kernel

/-- An ATS request without `EN_ATS`; a hit; a lookup of an entry that is not valid. -/
theorem test_witness_AtsCheckThenIotlbLookup :
    let c := { ctx0 with ta := 0x7000 }
    (request .ats (.translating ctx0 .lookup)).progress = .translating ctx0 .lookup ∧ (bareCtx 3 0).tc.getLsbD 1 = false ∧
    c.tc.getLsbD 1 = true ∧ caches.params.cap.ats = true ∧
    (∃ e, caches.tlbEntry (c.gatp.extractLsb' 44 16) (c.ta.extractLsb' 12 20) ((0x2000 : Word).extractLsb' 12 52) = some e ∧
      e.valid = true ∧ e.perm.covers .ats = true) ∧
    (∃ e, (caches.invalTlb .all).tlbEntry (c.gatp.extractLsb' 44 16) (c.ta.extractLsb' 12 20) ((0x2000 : Word).extractLsb' 12 52) = some e ∧
      e.valid = false) :=
  ⟨rfl, by decide, by decide, by decide, ⟨_, rfl, rfl, rfl⟩, ⟨_, rfl, rfl⟩⟩

/-- A read, and a write that the filter matches; nothing is cached. -/
theorem test_witness_PassThrough :
    let c := { ctx0 with satp := 0, gatp := 0 }
    (∀ k ∈ [ReqKind.read, .write 42 .b4], (request k (.translating c .lookup)).progress = .translating c .lookup ∧
      (inFlight k (.translating c .lookup)).lookupInflight 0 = some (request k (.translating c .lookup)) ∧
      (inFlight k (.translating c .lookup)).tlbEntry c.gscid c.pscid ((0x2000 : Word).extractLsb' 12 52) = none) ∧
    c.satp.extractLsb' 60 4 = 0 ∧ c.gatp.extractLsb' 60 4 = 0 ∧ msiMatch c 0x28003000 = true := by decide +kernel

/-- A leaf at the lowest and at the highest level. -/
theorem test_witness_LeafResultBits :
    (∃ out m p, walkEntry .read false { walkS with level := 0 } 0x00000000000400CF = .leaf out m p) ∧
    (∃ out m p, walkEntry (.write 0 .b1) true { walkS with level := 4 } 0x0000000000000007 = .leaf out m p) :=
  ⟨⟨_, _, _, rfl⟩, ⟨_, _, _, rfl⟩⟩

/-- Each of the three phases; a failing read, an entry that is not valid, a pointer, a leaf; a context without stage 2. -/
theorem test_witness_ImplicitWalkChecksAsRead :
    (∀ p ∈ [Progress.translating ctx0 (.sImplicit walkS walkG), .translating ctx0 (.gWalk walkG), .translating ctx0 (.sWalk walkS 0x10000)],
      (request (.write 0 .b8) p).progress = p) ∧
    { running with failing := nothingWorks }.readWord 0x10000 8 = none ∧ running.readWord 0x10000 8 = some 0 ∧
    walkEntry .read false walkS 0 = .bad ∧ walkEntry .read false walkS 0x401 = .pointer 0x1000 ∧
    (∃ out m p, walkEntry (.write 0 .b8) false { walkS with level := 0 } 0x00000000000400CF = .leaf out m p) ∧
    (bareCtx 3 0).gatp.extractLsb' 60 4 = 0 :=
  ⟨by decide +kernel, by decide +kernel, by decide +kernel, by decide +kernel, by decide +kernel, ⟨_, _, _, rfl⟩, by decide⟩

/-- Each of the moves that may change memory, changing it. -/
theorem test_witness_OnlyMsiPathAndRecordsWriteMemory :
    let changes (m : Move) (s : State) : Bool := nextIs (perform m s) fun t => t.mem != s.mem
    let at_ (p : Progress) : State := inFlight (.write 1 .b4) p
    changes .thread (caches.withFetchWord 128 (0x0000123400000402 + 0x2400 * 2 ^ 64)) = true ∧
    changes (.software (.store 0xFFFFFFFFFFFFFFFF .b8 1)) running = true ∧
    changes (.advance 0) (at_ (.resolving (.report .ddtInvalid false))) = true ∧
    changes (.advance 0) (at_ (.translating ctx0 (.report .writePageFault 0))) = true ∧
    changes (.advance 0) (at_ (.translating ctx0 (.msiForward 0x10000000 1 .b4))) = true ∧
    changes (.advance 0) (at_ (.translating ctx0 (.mrifPendingWrite 0x600010 70 0 0))) = true ∧
    changes (.advance 0) (at_ (.translating ctx0 (.mrifNotice 1))) = true := by decide +kernel

/-- A capacity of 0, a full cache and one with room; the generation pinned is current, or is not. -/
theorem test_witness_CachedTranslationEqualsWalk :
    let room : Progress := .translating ctx0 (.tlbRoom 0x9000 0xFFF Perm.rw)
    let p : Progress := .translating ctx0 (.tlbInsert 0x9000 0xFFF Perm.rw)
    let sized (n : Nat) : State := { caches with params := { caches.params with iotlbCapacity := n }, inflight := [request .read room] }
    let s := inFlight .read p
    (request .read room).progress = room ∧ (∀ n ∈ [0, 3, 4], (sized n).lookupInflight 0 = some (request .read room)) ∧
    (sized 3).params.iotlbCapacity ≤ (sized 3).iotlb.current.entries.length ∧
    ¬ (sized 4).params.iotlbCapacity ≤ (sized 4).iotlb.current.entries.length ∧
    (request .read p).progress = p ∧ s.lookupInflight 0 = some (request .read p) ∧ (request .read p).tlbGen = some s.iotlb.current.number ∧
    (request .read p).tlbGen ≠ some { s with iotlb := s.iotlb.replace }.iotlb.current.number ∧
    (request .read (.translating ctx0 .lookup)).progress = .translating ctx0 .lookup ∧ Perm.rw.covers .read = true := by decide +kernel

theorem test_witness_Stage2StepsAreTheWalk :
    let s := inFlight .read (.translating ctx0 (.gWalk walkG))
    s.lookupInflight 0 = some (request .read (.translating ctx0 (.gWalk walkG))) := by decide +kernel

theorem test_witness_DataPathRefinesTheSpec :
    let s := inFlight .ats (.translating ctx0 .lookup)
    s.lookupInflight 0 = some (request .ats (.translating ctx0 .lookup)) ∧ ctx0.modesOk s.params = true ∧ ctx0.stage1On = true ∧
    ctx0.tc.getLsbD 1 = true ∧ s.params.cap.ats = true ∧
    s.tlbEntry ctx0.gscid ctx0.pscid ((0x2000 : Word).extractLsb' 12 52) = none := by decide +kernel

/-- A request at the start, one at its end, and one deep in a two-stage walk. -/
theorem test_witness_RequestsEndInBoundedSteps :
    ∀ p ∈ [Progress.resolving .lookup, .ending (.fault .ddtInvalid), .translating ctx0 (.sImplicit { walkS with level := 4 } { walkG with level := 4 })],
      (inFlight .read p).Inv ∧ (inFlight .read p).lookupInflight 0 = some (request .read p) := by decide +kernel

/-- A request that comes to an address as its result, and one that returns it. -/
theorem test_witness_ResultCoversTheRequest :
    let p : Progress := .translating ctx0 (.tlbInsert 0x9000 0xFFF Perm.rw)
    let e : Progress := .ending (.ok 0x9000 0xFFF Perm.rw)
    (∀ x ∈ [p, e], (inFlight .read x).Inv ∧ (inFlight .read x).lookupInflight 0 = some (request .read x)) ∧
    nextIs (advance 0 (inFlight .read p)) (fun t => t.progressOf 0 = some e) = true ∧
    nextIs (advance 0 (inFlight .read e))
      (fun t => t.lookupInflight 0 = none && t.trace.head? = some (.result 0 (.ok 0x9000 0xFFF Perm.rw))) = true := by decide +kernel

/-- The lowest and the highest bit the mask does not select; the base format. -/
theorem test_witness_MsiFilterBits :
    (∀ i ∈ [3, 51], i < 52 ∧ ctx0.msiAddrMask.getLsbD i = false) ∧ msiMatch ctx0 0x28003000 = true ∧
    { Params.suggested with cap := { Params.suggested.cap with msiFlat := false } }.cap.msiFlat = false := by decide +kernel

/-- Not valid; stale; basic mode; MRIF mode, with it and without it in `CAP`; a reserved mode. -/
theorem test_witness_MsiEntryChecks :
    (request (.write 42 .b4) (.translating ctx0 (.msiPte 0x28003000 3 42 .b4))).progress = .translating ctx0 (.msiPte 0x28003000 3 42 .b4) ∧
    (6 : Word).getLsbD 0 = false ∧ (0x8000000000000007 : Word).getLsbD 63 = true ∧
    (([7, 3, 1, 5] : List Word).all fun m => m.getLsbD 0 && !m.getLsbD 63) = true ∧
    (7 : Word).extractLsb' 1 2 = 3 ∧ (3 : Word).extractLsb' 1 2 = 1 ∧ Params.suggested.cap.msiMrif = true ∧
    { Params.suggested.cap with msiMrif := false }.msiMrif = false ∧ (5 : Word).extractLsb' 1 2 ≠ 3 ∧ (5 : Word).extractLsb' 1 2 ≠ 1 := by
  decide +kernel

/-- At the top of the address space, with a write that succeeds and with one that fails. -/
theorem test_witness_BasicModeForwardsTheWrite :
    let p : Progress := .translating ctx0 (.msiForward 0xFFFFFFFFFFFFFFFF 1 .b8)
    let s := inFlight (.write 1 .b8) p
    let bad := { s with failing := nothingWorks }
    (request (.write 1 .b8) p).progress = p ∧ s.lookupInflight 0 = some (request (.write 1 .b8) p) ∧ s.mem.WF ∧
    accessFails s.failing .write 0xFFFFFFFFFFFFFFFF 8 = false ∧
    bad.lookupInflight 0 = some (request (.write 1 .b8) p) ∧ bad.mem.WF ∧
    accessFails bad.failing .write 0xFFFFFFFFFFFFFFFF 8 = true := by decide +kernel


/-- Identity 2047; both accesses succeed, or fail, or the write alone fails. -/
theorem test_witness_MrifPendingBit :
    let p : Progress := .translating ctx0 (.mrifPendingRead 0x6001F0 2047 0)
    let s (l : List FailRange) : State := { inFlight (.write 2047 .b4) p with failing := l }
    let readOnly : List FailRange := [{ lo := 0x6001F7, hi := 0x6001F7, onRead := false, onWrite := true }]
    (request (.write 2047 .b4) p).progress = p ∧
    (∀ l ∈ [[], nothingWorks, readOnly], (s l).lookupInflight 0 = some (request (.write 2047 .b4) p) ∧ (s l).mem.WF) ∧
    accessFails (s []).failing .read 0x6001F0 8 = false ∧ accessFails (s nothingWorks).failing .read 0x6001F0 8 = true ∧
    accessFails (s readOnly).failing .read 0x6001F0 8 = false ∧ accessFails (s readOnly).failing .write 0x6001F0 8 = true := by
  decide +kernel


/-- The enable bit clear and set; the notice. -/
theorem test_witness_MrifEnableAndNotice :
    let p : Progress := .translating ctx0 (.mrifEnable 0x600010 70 0)
    let q : Progress := .translating ctx0 (.mrifNotice 0x1000000000800005)
    let enabled : State := { inFlight (.write 70 .b4) p with mem := running.mem.store 0x600018 [64] }
    (∀ l ∈ [[], nothingWorks],
      { inFlight (.write 70 .b4) p with failing := l }.lookupInflight 0 = some (request (.write 70 .b4) p) ∧
      { inFlight (.write 70 .b4) q with failing := l }.lookupInflight 0 = some (request (.write 70 .b4) q) ∧
      { inFlight (.write 70 .b4) q with failing := l }.mem.WF) ∧
    ((inFlight (.write 70 .b4) p).mem.dword (0x600010 + 8)).getLsbD (70 % 64) = false ∧
    enabled.lookupInflight 0 = some (request (.write 70 .b4) p) ∧ enabled.mem.WF ∧
    (enabled.mem.dword (0x600010 + 8)).getLsbD (70 % 64) = true ∧
    accessFails nothingWorks .read (0x600010 + 8) 8 = true ∧ accessFails nothingWorks .write 0x2000000 4 = true := by decide +kernel


/-- A ring of four entries takes three records; a fourth overflows. -/
theorem test_witness_OverflowExactlyWhenFull :
    let q : RecQueue := { RecQueue.reset with active := true, size := 4 }
    q.active = true ∧ q.overflow = false ∧ q.head < q.size ∧ q.tail < q.size ∧ q.free = 3 ∧
    (enqueueAll .fq [[1], [2], [3]] (q, running)).1.memFault = false ∧ (enqueueAll .fq [[1], [2], [3]] (q, running)).1.overflow = false ∧
    (enqueueAll .fq [[1], [2], [3], [4]] (q, running)).1.memFault = false ∧
    (enqueueAll .fq [[1], [2], [3], [4]] (q, running)).1.overflow = true := by decide +kernel

theorem test_witness_ResetState : (∃ p, State.reset = State.ofParams p) ∧ ∃ s, perform .realize caches = .next s := ⟨⟨_, rfl⟩, ⟨_, rfl⟩⟩

/-- Both reset modes, the highest identifiers. -/
theorem test_witness_FirstRequestAfterReset :
    1 ≤ Params.suggested.ctxCacheCapacity ∧ 2 ^ 24 - 1 < 2 ^ 24 ∧ 2 ^ 20 - 1 < 2 ^ 20 ∧
    ∀ m ∈ [ResetMode.off, .bare],
      nextIs (perform (.request (2 ^ 24 - 1) (2 ^ 20 - 1) 0x1000 .ats) (State.ofParams { Params.suggested with resetDdtpMode := m }))
        (fun _ => true) = true := by decide +kernel

theorem test_witness_StepKeepsSoundness :
    let s : State := { caches with inflight := [request .read (.resolving .makeRoom)], nextId := 1, schedule := [.advance 0] }
    s.Inv ∧ nextIs (step s) (fun _ => true) = true := by decide +kernel

/-- A sound state with a debug request pending, and one without. -/
theorem test_witness_SoundStatesNeverFault :
    ∀ s ∈ [caches, { State.reset with pending := { Pending.none with debug := true } }], s.Inv := by decide +kernel

theorem test_witness_ParametersAreConstant : ∃ t, step State.reset = .next t := ⟨_, rfl⟩

/-- At the widths' boundaries. -/
theorem test_witness_WideIdentifiersRefused :
    (∃ t, perform (.request (2 ^ 24) 0 0 .read) running = .next t) ∧ (∃ t, perform (.request 0 (2 ^ 20) 0 .read) running = .next t) ∧
    (∃ t, perform (.request (2 ^ 24 - 1) (2 ^ 20 - 1) 0 .read) running = .next t) := ⟨⟨_, rfl⟩, ⟨_, rfl⟩, ⟨_, rfl⟩⟩

end Sys2Proof.Tests
end

/-! Proofs for 00_scope.md: the `extract` procedure of R26, and the identifier widths R10 and R11. -/

namespace Sys2Proof.Machine

/-! ## `extract` (R26)

The count that the procedure carries is the number of 1 positions of the mask below the loop variable, so the
library's `Nat.count` serves as the position at which the next bit is packed; its laws of order then place every bit. -/

/-- The statement's number of 1 positions below `n`, as a count. -/
theorem length_filter_range_eq_count (m : Word) (n : Nat) :
    ((List.range n).filter fun j => m.getLsbD j).length = Nat.count (m.getLsbD ·) n := by
  simp [Nat.count, List.countP_eq_length_filter]

/-- The loop's turn at a 1 position of the mask. -/
theorem extractUpto_succ_of_one (v : Word) {m : Word} {n : Nat} (hm : m.getLsbD n = true) :
    extractUpto v m (n + 1) =
      (if v.getLsbD n then (extractUpto v m n).1 ||| (1#64 <<< (extractUpto v m n).2) else (extractUpto v m n).1,
        (extractUpto v m n).2 + 1) := if_pos hm

/-- The loop's turn at a 0 position of the mask. -/
theorem extractUpto_succ_of_zero (v : Word) {m : Word} {n : Nat} (hm : ¬ m.getLsbD n = true) :
    extractUpto v m (n + 1) = extractUpto v m n := if_neg hm

/-- What the procedure carries beside the packed bits. -/
theorem extractUpto_count (v m : Word) (n : Nat) : (extractUpto v m n).2 = Nat.count (m.getLsbD ·) n := by
  induction n with
  | zero => simp [extractUpto]
  | succ n ih =>
    by_cases hm : m.getLsbD n = true
    · rw [extractUpto_succ_of_one v hm, Nat.count_succ, if_pos hm, ih]
    · rw [extractUpto_succ_of_zero v hm, Nat.count_succ, if_neg hm, ih, Nat.add_zero]

/-- One turn of the loop changes at most the bit at the count, which it sets when position `n` is 1 in both. -/
theorem extractUpto_succ_bit (v m : Word) {n : Nat} (hn : n < 64) (k : Nat) :
    (extractUpto v m (n + 1)).1.getLsbD k =
      ((extractUpto v m n).1.getLsbD k || (m.getLsbD n && v.getLsbD n && decide (Nat.count (m.getLsbD ·) n = k))) := by
  have hc : Nat.count (m.getLsbD ·) n < 64 := (Nat.count_le _).trans_lt hn
  by_cases hm : m.getLsbD n = true
  · rw [extractUpto_succ_of_one v hm, extractUpto_count, ← BitVec.twoPow_eq]
    by_cases hv : v.getLsbD n = true <;> simp [hm, hv, hc, BitVec.getLsbD_twoPow]
  · simp [extractUpto_succ_of_zero v hm, hm]

/-- Nothing is packed at the count or above. -/
theorem extractUpto_bit_of_count_le (v m : Word) {n k : Nat} (hn : n ≤ 64) (hk : Nat.count (m.getLsbD ·) n ≤ k) :
    (extractUpto v m n).1.getLsbD k = false := by
  induction n with
  | zero => simp [extractUpto]
  | succ n ih =>
    have hle : Nat.count (m.getLsbD ·) n ≤ k := (Nat.count_monotone _ n.le_succ).trans hk
    rw [extractUpto_succ_bit v m hn, ih (by omega) hle]
    by_cases hm : m.getLsbD n = true
    · have hlt : Nat.count (m.getLsbD ·) n < k := (Nat.count_lt_count_succ_iff.2 hm).trans_le hk
      simp [hlt.ne]
    · simp [hm]

/-- The bit at a 1 position `i` is packed at the number of 1 positions below it, and later turns leave it there. -/
theorem extractUpto_bit_count (v m : Word) {n i : Nat} (hn : n ≤ 64) (hi : i < n) (hm : m.getLsbD i = true) :
    (extractUpto v m n).1.getLsbD (Nat.count (m.getLsbD ·) i) = v.getLsbD i := by
  induction n with
  | zero => omega
  | succ n ih =>
    rw [extractUpto_succ_bit v m hn]
    obtain hlt | rfl := Nat.lt_succ_iff_lt_or_eq.1 hi
    · have hcount := Nat.count_strict_mono (p := (m.getLsbD · = true)) hm hlt
      simp [ih (by omega) hlt, hcount.ne']
    · simp [extractUpto_bit_of_count_le v m (Nat.le_of_lt hn) (Nat.le_refl _), hm]

/-- Settles O46: the two facts about the packing loop (R26), after all 64 positions. -/
theorem extractPacksMaskedBits : Obligations.ExtractPacksMaskedBits := by
  intro v m
  simp only [length_filter_range_eq_count]
  exact ⟨fun i hi hm => extractUpto_bit_count v m (Nat.le_refl 64) hi hm,
    fun k hk => extractUpto_bit_of_count_le v m (Nat.le_refl 64) hk⟩

/-! ## Requests at the interface (R10, R11) -/

/-- A request with an identifier wider than its field leaves a rejection in the trace and nothing else. -/
theorem arrive_of_wide {devid pid : Nat} (h : 2 ^ 24 ≤ devid ∨ 2 ^ 20 ≤ pid) (iova : Word) (kind : ReqKind) (s : State) :
    ∃ why, arrive devid pid iova kind s = s.emit (.rejected why) := by
  by_cases hd : 2 ^ 24 ≤ devid
  · exact ⟨.devidTooWide, if_pos hd⟩
  · have hp : 2 ^ 20 ≤ pid := h.resolve_left hd
    exact ⟨.pidTooWide, (if_neg hd).trans (if_pos hp)⟩

/-- The request in flight that arrives with identifiers that fit, about to look up its context. -/
def arrivedRequest (devid pid : Nat) (iova : Word) (kind : ReqKind) (s : State) : InFlight :=
  { id := s.nextId, req := { devid := BitVec.ofNat 24 devid, pid := BitVec.ofNat 20 pid, iova, kind },
    ctxGen := none, tlbGen := none, progress := .resolving .lookup, latches := [] }

/-- A request whose identifiers fit joins the requests in flight. -/
theorem arrive_of_fits {devid pid : Nat} (hd : devid < 2 ^ 24) (hp : pid < 2 ^ 20) (iova : Word) (kind : ReqKind) (s : State) :
    arrive devid pid iova kind s =
      { s with inflight := s.inflight ++ [arrivedRequest devid pid iova kind s], nextId := s.nextId + 1 } :=
  (if_neg hd.not_ge).trans (if_neg hp.not_ge)

/-- Settles O60, by the two cases of `arrive`; an identifier that fits is its own field's value (R10, R11). -/
theorem wideIdentifiersRefused : Obligations.WideIdentifiersRefused := by
  intro devid pid iova kind s t h
  obtain rfl : arrive devid pid iova kind s = t := Host.Outcome.next.inj h
  refine ⟨fun hwide => arrive_of_wide hwide iova kind s, fun hd hp => ?_⟩
  rw [arrive_of_fits hd hp]
  exact ⟨rfl, arrivedRequest devid pid iova kind s, rfl,
    (BitVec.toNat_ofNat ..).trans (Nat.mod_eq_of_lt hd), (BitVec.toNat_ofNat ..).trans (Nat.mod_eq_of_lt hp), rfl, rfl⟩

end Sys2Proof.Machine

/-! Proofs for 10_state.md: the sound state as an invariant, who may change the command queue's head, the status bits,
`ddtp` and the parameters, and the reset values. -/

namespace Sys2Proof.Machine

/-! ## Sound causes, permissions, levels and contexts -/

@[simp] theorem pageFault_neverRaised (stage : Stage) (kind : ReqKind) : (pageFault stage kind).neverRaised = false := by
  cases stage <;> cases kind <;> rfl

@[simp] theorem accessFault_neverRaised (kind : ReqKind) : (accessFault kind).neverRaised = false := by
  cases kind <;> rfl

@[simp] theorem Perm.covers_rw (kind : ReqKind) : Perm.rw.covers kind = true := by cases kind <;> rfl

theorem Perm.covers_inter {p q : Perm} {kind : ReqKind} (hp : p.covers kind = true) (hq : q.covers kind = true) :
    (p.inter q).covers kind = true := by
  cases kind <;> simp_all [Perm.covers, Perm.inter]

/-- The permission of a leaf that passes the permission and the access/dirty check covers the request (R281 to R283). -/
theorem covers_leafPerm {kind : ReqKind} {ade : Bool} {pte : Word} (hperm : permOk kind pte = true)
    (had : adOk kind ade pte = true) : (leafPerm ade pte).covers kind = true := by
  cases kind <;> simp_all [permOk, adOk, leafPerm, Perm.covers]

theorem walkEntry_leaf_covers {kind : ReqKind} {ade : Bool} {w : WalkState} {pte out m : Word} {p : Perm}
    (h : walkEntry kind ade w pte = .leaf out m p) : p.covers kind = true := by
  unfold walkEntry at h
  split_ifs at h with _ _ _ _ _ hperm had
  cases h
  exact covers_leafPerm (by simpa using hperm) (by simpa using had)

theorem sGeometry_levels_le {cap : Cap} {sxl : Bool} {mode : BitVec 4} {g : Geometry}
    (h : sGeometry cap sxl mode = some g) : g.levels ≤ 5 := by
  unfold sGeometry at h
  split_ifs at h <;> cases h <;> simp

theorem gGeometry_levels_le {cap : Cap} {gxl : Bool} {mode : BitVec 4} {g : Geometry}
    (h : gGeometry cap gxl mode = some g) : g.levels ≤ 5 := by
  unfold gGeometry at h
  split_ifs at h <;> cases h <;> simp

/-- A walk at its root stands at one of five levels. -/
theorem startWalk_level_lt {geom : Geometry} (hlev : geom.levels ≤ 5) (stage : Stage) (root : BitVec 44) (a m : Word)
    (p : Perm) : (startWalk stage geom root a m p).level < 5 := by
  simp only [startWalk]; omega

theorem startWalk_ok {geom : Geometry} {p : Perm} {kind : ReqKind} (hlev : geom.levels ≤ 5) (hp : p.covers kind = true)
    (stage : Stage) (root : BitVec 44) (a m : Word) : (startWalk stage geom root a m p).ok kind = true := by
  have hroot := startWalk_level_lt hlev stage root a m p
  simp [WalkState.ok, hroot, show (startWalk stage geom root a m p).perm.covers kind = true from hp]

theorem WalkState.descend_level_lt {w : WalkState} (hw : w.level < 5) (base : Word) : (w.descend base).level < 5 := by
  simp only [WalkState.descend]; omega

theorem WalkState.ok_iff {w : WalkState} {kind : ReqKind} : w.ok kind = true ↔ w.level < 5 ∧ w.perm.covers kind = true := by
  simp [WalkState.ok]

theorem WalkState.descend_ok {w : WalkState} {kind : ReqKind} (hw : w.ok kind = true) (base : Word) :
    (w.descend base).ok kind = true := by
  obtain ⟨hlevel, hperm⟩ := WalkState.ok_iff.1 hw
  exact WalkState.ok_iff.2 ⟨WalkState.descend_level_lt hlevel base, hperm⟩

theorem pdLevels_le {cap : Cap} {mode : BitVec 4} {n : Nat} (h : pdLevels cap mode = some n) : n ≤ 3 := by
  unfold pdLevels at h
  split_ifs at h <;> cases h <;> decide

/-- A process directory without levels is the mode Bare (R131). -/
theorem mode_eq_zero_of_pdLevels_zero {cap : Cap} {mode : BitVec 4} (h : pdLevels cap mode = some 0) : mode = 0 := by
  unfold pdLevels at h
  split_ifs at h with hmode
  · exact hmode
  all_goals cases h

@[simp] theorem sModeSupported_zero (cap : Cap) (sxl : Bool) : sModeSupported cap sxl 0#4 = true := by simp [sModeSupported]

@[simp] theorem gModeSupported_zero (cap : Cap) (gxl : Bool) : gModeSupported cap gxl 0#4 = true := by simp [gModeSupported]

@[simp] theorem modeField_zero : modeField 0#64 = 0#4 := rfl

theorem Ctx.modesOk_iff {p : Params} {c : Ctx} :
    c.modesOk p = true ↔ c.gModeOk p = true ∧ sModeSupported p.cap (tcSxl c.tc) (modeField c.satp) = true := by
  simp [Ctx.modesOk]

theorem bareCtx_modesOk (p : Params) (devid : BitVec 24) (pid : BitVec 20) : (bareCtx devid pid).modesOk p = true := by
  simp [Ctx.modesOk_iff, Ctx.gModeOk, bareCtx]

/-- What a device or process context leads to is sound: the state of the request that follows it will be. -/
def CtxOutcome.ok (p : Params) : CtxOutcome → Bool
  | .fail cause _ => !cause.neverRaised
  | .done ctx => ctx.modesOk p
  | .processDirectory ctx levels => ctx.gModeOk p && decide (levels ≤ 3)

/-- The process selection of a context whose modes have been checked (R215, R216 to R220). -/
theorem selectProcess_ok {p : Params} {c : Ctx} (hg : c.gModeOk p = true)
    (hs : tcPdtv c.tc = false → sModeSupported p.cap (tcSxl c.tc) (modeField c.satp) = true) :
    (selectProcess p c).ok p = true := by
  unfold selectProcess
  split
  · next hpdtv =>
    split
    · rfl
    · exact Ctx.modesOk_iff.2 ⟨hg, hs (by simpa using hpdtv)⟩
  · split
    · exact Ctx.modesOk_iff.2 ⟨hg, by simp⟩
    · split
      · rfl
      · next hlev => exact Ctx.modesOk_iff.2 ⟨hg, by simp [mode_eq_zero_of_pdLevels_zero hlev]⟩
      · next hlev =>
        split
        · rfl
        · simp [CtxOutcome.ok, hg, pdLevels_le hlev]

theorem deviceContext_ok (p : Params) (r : Request) (ds : Option (List Word)) : (deviceContext p r ds).ok p = true := by
  unfold deviceContext
  split
  · rfl
  · dsimp only
    split
    · rfl
    · split
      · rfl
      · next hmis =>
        simp only [dcMisconfigured, Bool.or_eq_true, not_or, Bool.and_eq_true, not_and] at hmis
        obtain ⟨⟨⟨⟨⟨-, hg⟩, hs⟩, -⟩, -⟩, -⟩ := hmis
        exact selectProcess_ok (by simpa [Ctx.gModeOk] using hg) fun hpdtv => by simpa [hpdtv] using hs

theorem processContext_ok {p : Params} {c : Ctx} (hg : c.gModeOk p = true) (ds : Option (List Word)) :
    (processContext p c ds).ok p = true := by
  unfold processContext
  split
  · rfl
  · dsimp only
    split
    · rfl
    · split
      · rfl
      · next hchecks =>
        obtain ⟨-, hs⟩ := not_or.1 hchecks
        exact Ctx.modesOk_iff.2 ⟨hg, by simpa using hs⟩

theorem dirEntry_error_cases {entry : Option Word} {load invalid misconfigured cause : Cause}
    (h : dirEntry entry load invalid misconfigured = .error cause) :
    cause = load ∨ cause = invalid ∨ cause = misconfigured := by
  unfold dirEntry at h
  split at h
  · cases h; exact .inl rfl
  · split_ifs at h <;> cases h
    · exact .inr (.inl rfl)
    · exact .inr (.inr rfl)

theorem ddPhase_ok {lvl : Nat} (hlvl : lvl ≤ 2) (p : Params) (page : Word) : (ddPhase lvl page).ok p = true := by
  unfold ddPhase; split
  · rfl
  · simpa [CtxPhase.ok] using hlvl

theorem pdPhase_ok {lvl : Nat} {p : Params} {ctx : Ctx} (hg : ctx.gModeOk p = true) (hlvl : lvl ≤ 2) (page : Word) :
    (pdPhase ctx lvl page).ok p = true := by
  unfold pdPhase; split
  · exact hg
  · simpa [CtxPhase.ok, hg] using hlvl

/-- A sound result is one the block may send out. -/
theorem Result.legal_of_okFor {r : Result} {kind : ReqKind} (h : r.okFor kind = true) (id : Nat) :
    (Output.result id r).legal = true := by
  cases r with
  | ok => rfl
  | msiDone => rfl
  | fault cause => exact h

/-! ## What one step of a request can do -/

/-- A request of kind `kind` stands at a sound place: `InFlight.ok` as a predicate on the progress alone. -/
def Progress.ok (p : Params) (kind : ReqKind) : Progress → Bool
  | .resolving ph => ph.ok p
  | .translating ctx ph => ctx.modesOk p && ph.ok kind
  | .ending r => r.okFor kind

theorem InFlight.ok_eq (p : Params) (f : InFlight) : f.ok p = f.progress.ok p f.req.kind := by
  unfold InFlight.ok
  cases f.progress <;> rfl

/-- `t` is `s` with the request `f` gone on to its next place, which is sound if `sound` holds. -/
def GoesOn (f : InFlight) (s t : State) (sound : Prop) : Prop :=
  ∃ q, t = s.goOn f q ∧ (sound → q.ok s.params f.req.kind = true)

namespace GoesOn

variable {f : InFlight} {s t : State} {H K : Prop}

theorem mono (h : GoesOn f s t H) (hK : K → H) : GoesOn f s t K := by
  obtain ⟨q, ht, hq⟩ := h
  exact ⟨q, ht, hq ∘ hK⟩

theorem resolving {ph : CtxPhase} (h : H → ph.ok s.params = true) : GoesOn f s (s.goOn f (.resolving ph)) H :=
  ⟨_, rfl, h⟩

theorem translating {ctx : Ctx} {ph : XlatePhase} (h : H → ctx.modesOk s.params = true ∧ ph.ok f.req.kind = true) :
    GoesOn f s (s.goOn f (.translating ctx ph)) H :=
  ⟨_, rfl, fun hH => by simp [Progress.ok, h hH]⟩

theorem conclude {r : Result} (h : H → r.okFor f.req.kind = true) : GoesOn f s (s.conclude f r) H := ⟨_, rfl, h⟩

theorem ctxFail {cause : Cause} (hc : cause.neverRaised = false) (dtf : Bool) :
    GoesOn f s (Machine.ctxFail f cause dtf s) H :=
  resolving fun _ => by simp [CtxPhase.ok, hc]

theorem xlateFail {ctx : Ctx} {cause : Cause} (hc : cause.neverRaised = false) (gpa2 : Word)
    (h : H → ctx.modesOk s.params = true) : GoesOn f s (Machine.xlateFail f ctx cause gpa2 s) H :=
  translating fun hH => ⟨h hH, by simp [XlatePhase.ok, hc]⟩

end GoesOn

/-- What one step of the request `f` does to the rest of the block, beside its own record in flight. -/
inductive RequestEffect (f : InFlight) (s : State) : State → Prop where
  | nothing : RequestEffect f s s
  | event {e : PerfEvent} (he : e ≠ .trq) : RequestEffect f s (s.event f e)
  | read {a : Word} {n : Nat} {ok : Bool} : RequestEffect f s (s.logAccess .read a n ok)
  | eventRead {e : PerfEvent} {a : Word} {n : Nat} {ok : Bool} (he : e ≠ .trq) :
      RequestEffect f s ((s.event f e).logAccess .read a n ok)
  | write {u : State} {a : Word} {bs : List Byte} {ok : Bool} (hw : s.memWrite a bs = (u, ok)) : RequestEffect f s u
  | insertCtx {ctx : Ctx} (hf : f.progress = .resolving (.insert ctx)) : RequestEffect f s (s.insertCtx ctx)
  | insertTlb (e : TlbEntry) : RequestEffect f s (s.insertTlb e)
  | replaceCtx : RequestEffect f s { s with ctxCache := s.ctxCache.replace }
  | replaceTlb : RequestEffect f s { s with iotlb := s.iotlb.replace }
  | enqueueFq (rec : List Word) : RequestEffect f s (s.enqueueFq rec)
  | enqueuePq (rec : List Word) : RequestEffect f s (s.enqueuePq rec)

/-- Everything one step of the request `f` can do: an effect on the rest of the block, after which the same request
stands at a next place, a sound one if it and the cached contexts were sound; or the return of its result. -/
inductive RequestTurn (f : InFlight) (s : State) : State → Prop where
  | goes {u : State} {f' : InFlight} (he : RequestEffect f s u) (hid : f'.id = f.id) (hreq : f'.req = f.req)
      (hok : s.RequestsOk → f.ok s.params = true → f'.ok s.params = true) : RequestTurn f s (u.setInflight f')
  | goesReleasing {u : State} {f' : InFlight} (he : RequestEffect f s u) (hid : f'.id = f.id) (hreq : f'.req = f.req)
      (hok : s.RequestsOk → f.ok s.params = true → f'.ok s.params = true) :
      RequestTurn f s (u.setInflight f').releaseGenerations
  | returns {r : Result} (hr : f.progress = .ending r) : RequestTurn f s (s.finish f r)

theorem RequestEffect.params {f : InFlight} {s u : State} (h : RequestEffect f s u) : u.params = s.params := by
  cases h with
  | write hw => exact (SameControl.memWrite hw).params
  | enqueueFq rec => exact (SameControl.enqueueFq s rec).params
  | enqueuePq rec => exact (SameControl.enqueuePq s rec).params
  | _ => rfl

/-- After the effect `u` the request, perhaps with a new pin (`g`), goes on. -/
theorem RequestTurn.of_goesOn {f g : InFlight} {s u t : State} {H : Prop} (he : RequestEffect f s u)
    (hg : GoesOn g u t H) (hH : s.RequestsOk → f.ok s.params = true → H) (hid : g.id = f.id := by rfl)
    (hreq : g.req = f.req := by rfl) :
    RequestTurn f s t := by
  obtain ⟨q, rfl, hq⟩ := hg
  rw [he.params, hreq] at hq
  exact .goes he hid hreq fun hs hf => by
    rw [InFlight.ok_eq, hreq]; exact hq (hH hs hf)

/-! ### Context resolution -/

theorem ctxContinue_goesOn (f : InFlight) (o : CtxOutcome) (s : State) :
    GoesOn f s (ctxContinue f o s) (o.ok s.params = true) := by
  cases o with
  | fail cause dtf => exact .resolving id
  | done ctx => exact .resolving id
  | processDirectory ctx levels =>
    refine .resolving fun ho => ?_
    obtain ⟨hg, hlev⟩ : ctx.gModeOk s.params = true ∧ levels ≤ 3 := by simpa [CtxOutcome.ok] using ho
    exact pdPhase_ok hg (by omega) _

theorem ctxEntry_modesOk {s : State} {devid : BitVec 24} {pid : BitVec 20} {e : CtxEntry} (hs : s.RequestsOk)
    (h : s.ctxEntry devid pid = some e) : e.ctx.modesOk s.params = true :=
  hs.1 e (List.mem_of_find?_eq_some h)

theorem ctxLookupStep_turn (f : InFlight) (s : State) : RequestTurn f s (ctxLookupStep f s) := by
  have hev : (if f.req.kind.isAts then PerfEvent.atsRq else PerfEvent.urq) ≠ .trq := by split <;> decide
  dsimp only [ctxLookupStep]
  split
  · next e hfind =>
    split
    · exact .of_goesOn (.event hev) (.translating id) fun hs _ => ⟨ctxEntry_modesOk hs hfind, rfl⟩
    · exact .of_goesOn (.event hev) (.resolving fun _ => rfl) fun _ _ => trivial
  · exact .of_goesOn (.event hev) (.resolving fun _ => rfl) fun _ _ => trivial

theorem ctxMakeRoomStep_turn (f : InFlight) (s : State) : RequestTurn f s (ctxMakeRoomStep f s) := by
  unfold ctxMakeRoomStep
  split
  · exact .goesReleasing .replaceCtx rfl rfl fun _ _ => rfl
  · exact .of_goesOn .nothing (.resolving fun _ => rfl) fun _ _ => trivial

theorem DdtpMode.levels_le (m : DdtpMode) : m.levels ≤ 3 := by cases m <;> decide

theorem ctxWalkStep_turn (f : InFlight) (s : State) : RequestTurn f s (ctxWalkStep f s) := by
  refine .of_goesOn (H := True) (g := f) .nothing ?_ fun _ _ => trivial
  unfold ctxWalkStep
  split
  · exact .ctxFail rfl _
  · exact .resolving fun _ => bareCtx_modesOk _ _ _
  · split
    · exact .ctxFail rfl _
    · exact .resolving fun _ => ddPhase_ok (by have := s.ddtp.mode.levels_le; omega) _ _

theorem ctxDdEntryStep_turn {f : InFlight} {lvl : Nat} {page : Word} {s : State}
    (hf : f.progress = .resolving (.ddEntry lvl page)) : RequestTurn f s (ctxDdEntryStep f lvl page s) := by
  have hlvl (h : f.ok s.params = true) : lvl ≤ 2 := by simpa [InFlight.ok, hf, CtxPhase.ok] using h
  dsimp only [ctxDdEntryStep]
  split
  · next cause herr =>
    exact .of_goesOn (H := True) (.eventRead (by decide))
      (.ctxFail (by rcases dirEntry_error_cases herr with rfl | rfl | rfl <;> rfl) _) fun _ _ => trivial
  · exact .of_goesOn (.eventRead (by decide)) (.resolving fun h : lvl ≤ 2 => ddPhase_ok (by omega) _ _) fun _ h => hlvl h

theorem ctxPdEntryStep_turn {f : InFlight} {ctx : Ctx} {lvl : Nat} {page : Word} {s : State}
    (hf : f.progress = .resolving (.pdEntry ctx lvl page)) : RequestTurn f s (ctxPdEntryStep f ctx lvl page s) := by
  have hph (h : f.ok s.params = true) : ctx.gModeOk s.params = true ∧ lvl ≤ 2 := by
    simpa [InFlight.ok, hf, CtxPhase.ok] using h
  dsimp only [ctxPdEntryStep]
  split
  · next cause herr =>
    exact .of_goesOn (H := True) (.eventRead (by decide))
      (.ctxFail (by rcases dirEntry_error_cases herr with rfl | rfl | rfl <;> rfl) _) fun _ _ => trivial
  · exact .of_goesOn (.eventRead (by decide)) (.resolving fun h : _ ∧ lvl ≤ 2 => pdPhase_ok h.1 (by omega) _) fun _ h => hph h

theorem ctxPdLeafStep_turn {f : InFlight} {ctx : Ctx} {page : Word} {s : State}
    (hf : f.progress = .resolving (.pdLeaf ctx page)) : RequestTurn f s (ctxPdLeafStep f ctx page s) := by
  have hg (h : f.ok s.params = true) : ctx.gModeOk s.params = true := by simpa [InFlight.ok, hf, CtxPhase.ok] using h
  exact .of_goesOn (.eventRead (by decide)) (ctxContinue_goesOn _ _ _) fun _ h => processContext_ok (hg h) _

theorem ctxInsertStep_turn {f : InFlight} {ctx : Ctx} {s : State} (hf : f.progress = .resolving (.insert ctx)) :
    RequestTurn f s (ctxInsertStep f ctx s) := by
  have hctx (h : f.ok s.params = true) : ctx.modesOk s.params = true := by simpa [InFlight.ok, hf, CtxPhase.ok] using h
  dsimp only [ctxInsertStep]
  split
  · exact .of_goesOn (.insertCtx hf) (.translating id) fun _ h => ⟨hctx h, rfl⟩
  · exact .of_goesOn .nothing (.translating id) fun _ h => ⟨hctx h, rfl⟩

theorem reportContext_effect (f : InFlight) (r : Request) (cause : Cause) (dtf : Bool) (s : State) :
    RequestEffect f s (s.reportContext r cause dtf) := by
  unfold State.reportContext
  split
  · exact .nothing
  · exact .enqueueFq _

theorem ctxReportStep_turn {f : InFlight} {cause : Cause} {dtf : Bool} {s : State}
    (hf : f.progress = .resolving (.report cause dtf)) : RequestTurn f s (ctxReportStep f cause dtf s) :=
  .of_goesOn (reportContext_effect f _ _ _ s) (.conclude id) fun _ h => by
    simpa [InFlight.ok, hf, CtxPhase.ok, Result.okFor] using h

theorem ctxStep_turn {f : InFlight} {ph : CtxPhase} {s : State} (hf : f.progress = .resolving ph) :
    RequestTurn f s (ctxStep f ph s) := by
  cases ph with
  | lookup => exact ctxLookupStep_turn f s
  | makeRoom => exact ctxMakeRoomStep_turn f s
  | walk => exact ctxWalkStep_turn f s
  | ddEntry lvl page => exact ctxDdEntryStep_turn hf
  | ddLeaf page =>
    exact .of_goesOn (.eventRead (by decide)) (ctxContinue_goesOn _ _ _) fun _ _ => deviceContext_ok _ _ _
  | pdEntry ctx lvl page => exact ctxPdEntryStep_turn hf
  | pdLeaf ctx page => exact ctxPdLeafStep_turn hf
  | insert ctx => exact ctxInsertStep_turn hf
  | report cause dtf => exact ctxReportStep_turn hf

/-! ### Translation -/

section
variable {f : InFlight} {ctx : Ctx} {s t : State}

theorem msiStart_goesOn (f : InFlight) (ctx : Ctx) (gpa data : Word) (size : AccessSize) (s : State) :
    GoesOn f s (msiStart f ctx gpa data size s) (ctx.modesOk s.params = true) := by
  unfold msiStart
  split
  · exact .xlateFail rfl _ id
  · exact .translating fun h => ⟨h, rfl⟩

theorem xlateFinish_goesOn (f : InFlight) (ctx : Ctx) (gpa spa m : Word) (p : Perm) (s : State) :
    GoesOn f s (xlateFinish f ctx gpa spa m p s) (ctx.modesOk s.params = true ∧ p.covers f.req.kind = true) := by
  unfold xlateFinish
  split
  · exact .conclude And.right
  · exact .translating id

theorem xlateStage2_goesOn {gpa m : Word} {p : Perm} (h : xlateStage2 f ctx gpa m p s = .next t) :
    GoesOn f s t (ctx.modesOk s.params = true ∧ p.covers f.req.kind = true) := by
  unfold xlateStage2 at h
  split at h
  · split at h
    · cases h
    · next geom hgeom =>
      split at h <;> cases h
      · exact .translating fun ⟨hctx, hp⟩ => ⟨hctx, startWalk_ok (gGeometry_levels_le hgeom) hp _ _ _ _⟩
      · exact .xlateFail (by simp) _ And.left
  · cases h; exact xlateFinish_goesOn _ _ _ _ _ _ _

theorem xlateAfterStage1_goesOn {gpa m : Word} {p : Perm} (h : xlateAfterStage1 f ctx gpa m p s = .next t) :
    GoesOn f s t (ctx.modesOk s.params = true ∧ p.covers f.req.kind = true) := by
  unfold xlateAfterStage1 at h
  split at h
  · split at h
    · cases h; exact (msiStart_goesOn _ _ _ _ _ _).mono And.left
    · exact xlateStage2_goesOn h
  all_goals exact xlateStage2_goesOn h

theorem xlateStage1Entry_goesOn {w : WalkState} (h : xlateStage1Entry f ctx w s = .next t) :
    GoesOn f s t (ctx.modesOk s.params = true ∧ w.ok f.req.kind = true) := by
  unfold xlateStage1Entry at h
  split at h
  · split at h
    · cases h
    · next geom hgeom =>
      split at h <;> cases h
      · refine .translating fun ⟨hctx, hw⟩ => ⟨hctx, ?_⟩
        simp [XlatePhase.ok, hw, startWalk_level_lt (gGeometry_levels_le hgeom)]
      · exact .xlateFail (by simp) _ And.left
  · cases h; exact .translating id

theorem xlateStage1_goesOn (h : xlateStage1 f ctx s = .next t) : GoesOn f s t (ctx.modesOk s.params = true) := by
  unfold xlateStage1 at h
  split at h
  · cases h
  · next geom hgeom =>
    split at h
    · exact (xlateStage1Entry_goesOn h).mono fun hctx =>
        ⟨hctx, startWalk_ok (sGeometry_levels_le hgeom) (Perm.covers_rw _) _ _ _ _⟩
    · cases h; exact .xlateFail (by simp) _ id

theorem xlatePassThrough_goesOn (f : InFlight) (ctx : Ctx) (s : State) :
    GoesOn f s (xlatePassThrough f ctx s) (ctx.modesOk s.params = true) := by
  have hdone : GoesOn f s (s.conclude f (.ok f.req.iova 0xFFF Perm.rw)) (ctx.modesOk s.params = true) :=
    .conclude fun _ => Perm.covers_rw _
  unfold xlatePassThrough
  split
  · split
    · exact msiStart_goesOn _ _ _ _ _ _
    · exact hdone
  all_goals exact hdone

theorem xlateMiss_goesOn (h : xlateMiss f ctx s = .next t) :
    GoesOn f (s.event f .tlbMiss) t (ctx.modesOk s.params = true) := by
  dsimp only [xlateMiss] at h
  split at h
  · exact xlateStage1_goesOn h
  · split at h
    · exact (xlateAfterStage1_goesOn h).mono fun hctx => ⟨hctx, Perm.covers_rw _⟩
    · cases h; exact xlatePassThrough_goesOn _ _ _

/-- A sound request with a resolved context has a context with supported modes, and stands at a sound phase. -/
theorem InFlight.ok_translating {p : Params} {ph : XlatePhase} (hf : f.progress = .translating ctx ph) :
    f.ok p = true ↔ ctx.modesOk p = true ∧ ph.ok f.req.kind = true := by
  simp [InFlight.ok, hf]

theorem xlateLookupStep_turn (hf : f.progress = .translating ctx .lookup) (h : xlateLookupStep f ctx s = .next t) :
    RequestTurn f s t := by
  have hctx (hok : f.ok s.params = true) : ctx.modesOk s.params = true := ((InFlight.ok_translating hf).1 hok).1
  dsimp only [xlateLookupStep] at h
  split at h
  · cases h; exact .of_goesOn (H := True) .nothing (.conclude fun _ => rfl) fun _ _ => trivial
  · split at h
    · split at h
      · next e _ hhit =>
        cases h
        obtain ⟨-, hcovers⟩ : e.valid = true ∧ e.perm.covers f.req.kind = true := by simpa using hhit
        exact .of_goesOn (H := True) .nothing (.conclude fun _ => hcovers) fun _ _ => trivial
      · have hmiss := xlateMiss_goesOn h
        exact .of_goesOn (.event (by decide)) hmiss fun _ hok => hctx hok
    · have hmiss := xlateMiss_goesOn h
      exact .of_goesOn (.event (by decide)) hmiss fun _ hok => hctx hok

theorem xlateSWalkStep_turn {w : WalkState} {pa : Word} (hf : f.progress = .translating ctx (.sWalk w pa))
    (h : xlateSWalkStep f ctx w pa s = .next t) : RequestTurn f s t := by
  have hph (hok : f.ok s.params = true) : ctx.modesOk s.params = true ∧ w.ok f.req.kind = true :=
    (InFlight.ok_translating hf).1 hok
  dsimp only [xlateSWalkStep] at h
  split at h
  · cases h; exact .of_goesOn (.eventRead (by decide)) (.xlateFail (by simp) _ And.left) fun _ hok => hph hok
  · split at h
    · cases h; exact .of_goesOn (.eventRead (by decide)) (.xlateFail (by simp) _ And.left) fun _ hok => hph hok
    · exact .of_goesOn (.eventRead (by decide)) (xlateStage1Entry_goesOn h) fun _ hok =>
        (hph hok).imp_right (WalkState.descend_ok · _)
    · next hleaf =>
      exact .of_goesOn (.eventRead (by decide)) (xlateAfterStage1_goesOn h) fun _ hok =>
        (hph hok).imp_right fun hw => Perm.covers_inter (WalkState.ok_iff.1 hw).2 (walkEntry_leaf_covers hleaf)

theorem xlateSImplicitStep_turn {w g : WalkState} (hf : f.progress = .translating ctx (.sImplicit w g)) :
    RequestTurn f s (xlateSImplicitStep f ctx w g s) := by
  have hph (hok : f.ok s.params = true) : ctx.modesOk s.params = true ∧ w.ok f.req.kind = true ∧ g.level < 5 := by
    simpa [XlatePhase.ok] using (InFlight.ok_translating hf).1 hok
  dsimp only [xlateSImplicitStep]
  split
  · exact .of_goesOn (.eventRead (by decide)) (.xlateFail (by simp) _ And.left) fun _ hok => hph hok
  · split
    · exact .of_goesOn (.eventRead (by decide)) (.xlateFail (by simp) _ And.left) fun _ hok => hph hok
    · refine .of_goesOn (.eventRead (by decide)) (.translating id) fun _ hok => ?_
      obtain ⟨hctx, hw, hg⟩ := hph hok
      exact ⟨hctx, by simp [XlatePhase.ok, hw, WalkState.descend_level_lt hg]⟩
    · refine .of_goesOn (.eventRead (by decide)) (.translating id) fun _ hok => ?_
      obtain ⟨hctx, hw, -⟩ := hph hok
      exact ⟨hctx, hw⟩

theorem xlateGWalkStep_turn {w : WalkState} (hf : f.progress = .translating ctx (.gWalk w)) :
    RequestTurn f s (xlateGWalkStep f ctx w s) := by
  have hph (hok : f.ok s.params = true) : ctx.modesOk s.params = true ∧ w.ok f.req.kind = true :=
    (InFlight.ok_translating hf).1 hok
  dsimp only [xlateGWalkStep]
  split
  · exact .of_goesOn (.eventRead (by decide)) (.xlateFail (by simp) _ And.left) fun _ hok => hph hok
  · split
    · exact .of_goesOn (.eventRead (by decide)) (.xlateFail (by simp) _ And.left) fun _ hok => hph hok
    · exact .of_goesOn (.eventRead (by decide)) (.translating id) fun _ hok =>
        (hph hok).imp_right (WalkState.descend_ok · _)
    · next hleaf =>
      exact .of_goesOn (.eventRead (by decide)) (xlateFinish_goesOn _ _ _ _ _ _ _) fun _ hok =>
        (hph hok).imp_right fun hw => Perm.covers_inter (WalkState.ok_iff.1 hw).2 (walkEntry_leaf_covers hleaf)

theorem msiEntry_fail_neverRaised {cap : Cap} {id gpa : Word} {ds : Option (List Word)} {cause : Cause}
    (h : msiEntry cap id gpa ds = .fail cause) : cause.neverRaised = false := by
  unfold msiEntry at h
  split at h
  · cases h; rfl
  · dsimp only at h
    split_ifs at h <;> cases h <;> rfl

/-- A read of the MSI path, after which the request goes on. -/
theorem RequestTurn.of_read {ph : XlatePhase} (hf : f.progress = .translating ctx ph) {a : Word} {n : Nat} {ok : Bool}
    (hg : GoesOn f (s.logAccess .read a n ok) t (ctx.modesOk s.params = true)) : RequestTurn f s t :=
  .of_goesOn .read hg fun _ hok => ((InFlight.ok_translating hf).1 hok).1

/-- A write of the MSI path, after which the request goes on. -/
theorem RequestTurn.of_write {ph : XlatePhase} (hf : f.progress = .translating ctx ph) {u : State} {a : Word}
    {bs : List Byte} {ok : Bool} (hw : s.memWrite a bs = (u, ok)) (hg : GoesOn f u t (ctx.modesOk u.params = true)) :
    RequestTurn f s t :=
  .of_goesOn (.write hw) hg fun _ hok => by
    rw [(SameControl.memWrite hw).params]; exact ((InFlight.ok_translating hf).1 hok).1

theorem msiPteStep_turn {gpa ifn data : Word} {size : AccessSize}
    (hf : f.progress = .translating ctx (.msiPte gpa ifn data size)) :
    RequestTurn f s (msiPteStep f ctx gpa ifn data size s) := by
  dsimp only [msiPteStep]
  split
  · next cause hfail => exact .of_read hf (.xlateFail (msiEntry_fail_neverRaised hfail) _ id)
  · exact .of_read hf (.translating fun hctx => ⟨hctx, rfl⟩)
  · exact .of_read hf (.translating fun hctx => ⟨hctx, rfl⟩)

theorem msiForwardStep_turn {target data : Word} {size : AccessSize}
    (hf : f.progress = .translating ctx (.msiForward target data size)) :
    RequestTurn f s (msiForwardStep f ctx target data size s) := by
  unfold msiForwardStep
  split
  · next hw => exact .of_write hf hw (.xlateFail rfl _ id)
  · next hw => exact .of_write hf hw (.conclude fun _ => rfl)

theorem mrifPendingReadStep_turn {pa id m1 : Word} (hf : f.progress = .translating ctx (.mrifPendingRead pa id m1)) :
    RequestTurn f s (mrifPendingReadStep f ctx pa id m1 s) := by
  dsimp only [mrifPendingReadStep]
  split
  · exact .of_read hf (.xlateFail rfl _ fun hctx => hctx)
  · exact .of_read hf (.translating fun hctx => ⟨hctx, rfl⟩)

theorem mrifPendingWriteStep_turn {pa id m1 pending : Word}
    (hf : f.progress = .translating ctx (.mrifPendingWrite pa id m1 pending)) :
    RequestTurn f s (mrifPendingWriteStep f ctx pa id m1 pending s) := by
  unfold mrifPendingWriteStep
  split
  · next hw => exact .of_write hf hw (.xlateFail rfl _ fun hctx => hctx)
  · next hw => exact .of_write hf hw (.translating fun hctx => ⟨hctx, rfl⟩)

theorem mrifEnableStep_turn {pa id m1 : Word} (hf : f.progress = .translating ctx (.mrifEnable pa id m1)) :
    RequestTurn f s (mrifEnableStep f ctx pa id m1 s) := by
  dsimp only [mrifEnableStep]
  split
  · exact .of_read hf (.xlateFail rfl _ fun hctx => hctx)
  · split
    · exact .of_read hf (.translating fun hctx => ⟨hctx, rfl⟩)
    · exact .of_read hf (.conclude fun _ => rfl)

theorem mrifNoticeStep_turn {m1 : Word} (hf : f.progress = .translating ctx (.mrifNotice m1)) :
    RequestTurn f s (mrifNoticeStep f ctx m1 s) := by
  unfold mrifNoticeStep
  split
  · next hw => exact .of_write hf hw (.xlateFail rfl _ id)
  · next hw => exact .of_write hf hw (.conclude fun _ => rfl)

theorem xlateMakeRoomStep_turn {addr m : Word} {p : Perm} (hf : f.progress = .translating ctx (.tlbRoom addr m p)) :
    RequestTurn f s (xlateMakeRoomStep f ctx addr m p s) := by
  have hph (hok : f.ok s.params = true) : ctx.modesOk s.params = true ∧ p.covers f.req.kind = true :=
    (InFlight.ok_translating hf).1 hok
  unfold xlateMakeRoomStep
  split
  · exact .of_goesOn .nothing (.conclude And.right) fun _ hok => hph hok
  · split
    · exact .goesReleasing .replaceTlb rfl rfl fun _ hok => (InFlight.ok_translating rfl).2 (hph hok)
    · exact .of_goesOn .nothing (.translating id) fun _ hok => hph hok

theorem xlateInsertStep_turn {addr m : Word} {p : Perm} (hf : f.progress = .translating ctx (.tlbInsert addr m p)) :
    RequestTurn f s (xlateInsertStep f ctx addr m p s) := by
  have hp (hok : f.ok s.params = true) : p.covers f.req.kind = true := ((InFlight.ok_translating hf).1 hok).2
  dsimp only [xlateInsertStep]
  split
  · exact .of_goesOn (.insertTlb _) (.conclude id) fun _ hok => hp hok
  · exact .of_goesOn .nothing (.conclude id) fun _ hok => hp hok

theorem reportTranslation_effect (f : InFlight) (r : Request) (ctx : Ctx) (cause : Cause) (gpa2 : Word) (s : State) :
    RequestEffect f s (s.reportTranslation r ctx cause gpa2) := by
  unfold State.reportTranslation
  split
  · split
    · exact .enqueuePq _
    · exact .nothing
  · split
    · exact .nothing
    · exact .enqueueFq _

theorem xlateReportStep_turn {cause : Cause} {gpa2 : Word} (hf : f.progress = .translating ctx (.report cause gpa2)) :
    RequestTurn f s (xlateReportStep f ctx cause gpa2 s) :=
  .of_goesOn (reportTranslation_effect f _ _ _ _ s) (.conclude id) fun _ hok => ((InFlight.ok_translating hf).1 hok).2

theorem xlateStep_turn {ph : XlatePhase} (hf : f.progress = .translating ctx ph) (h : xlateStep f ctx ph s = .next t) :
    RequestTurn f s t := by
  cases ph with
  | lookup => exact xlateLookupStep_turn hf h
  | sWalk w pa => exact xlateSWalkStep_turn hf h
  | sImplicit w g => cases h; exact xlateSImplicitStep_turn hf
  | gWalk w => cases h; exact xlateGWalkStep_turn hf
  | msiPte gpa ifn data size => cases h; exact msiPteStep_turn hf
  | msiForward target data size => cases h; exact msiForwardStep_turn hf
  | mrifPendingRead pa id m1 => cases h; exact mrifPendingReadStep_turn hf
  | mrifPendingWrite pa id m1 pending => cases h; exact mrifPendingWriteStep_turn hf
  | mrifEnable pa id m1 => cases h; exact mrifEnableStep_turn hf
  | mrifNotice m1 => cases h; exact mrifNoticeStep_turn hf
  | tlbRoom addr m perm => cases h; exact xlateMakeRoomStep_turn hf
  | tlbInsert addr m perm => cases h; exact xlateInsertStep_turn hf
  | report cause gpa2 => cases h; exact xlateReportStep_turn hf

/-- Every step of a request is one of the turns of `RequestTurn`. -/
theorem requestStep_turn (h : requestStep f s = .next t) : RequestTurn f s t := by
  unfold requestStep at h
  split at h
  · next hf => cases h; exact ctxStep_turn hf
  · next hf => exact xlateStep_turn hf h
  · next hf => cases h; exact .returns hf

end

/-! ## What one move of the background thread can do -/

/-- The ways a command can end (43_commands.md R368 to R376), with the state each leaves. -/
inductive CommandEnd (s : State) : State → Prop where
  | illegal : CommandEnd s s.stopIllegal
  | invalTlb (scope : Scope) : CommandEnd s (s.invalTlb scope).retire
  | invalCtx (which : CtxEntry → Bool) : CommandEnd s (s.invalCtx which).retire
  | atsEvent (kind : AtsKind) (devid : BitVec 24) (pid : BitVec 20) (payload : Word) :
      CommandEnd s (s.emit (.atsEvent kind devid pid payload)).retire
  | fence (wsi : Bool) : CommandEnd s (fenceInterrupt wsi s).retire
  | fenceWrite (wsi : Bool) {u : State} {a : Word} {bs : List Byte} (hw : s.memWrite a bs = (u, true)) :
      CommandEnd s (fenceInterrupt wsi u).retire
  | fenceFault {u : State} {a : Word} {bs : List Byte} (hw : s.memWrite a bs = (u, false)) : CommandEnd s u.stopMemFault

theorem sendAts_end {kind : AtsKind} {pid : BitVec 20} {pv dsv : Bool} {rid : BitVec 16} {dseg : BitVec 8} {payload : Word}
    {s t : State} (h : sendAts kind pid pv dsv rid dseg payload s = .next t) : CommandEnd s t := by
  unfold sendAts at h
  split at h <;> cases h
  · exact .atsEvent _ _ _ _
  · exact .illegal

theorem execIofenceC_end {av wsi pr pw : Bool} {data : BitVec 32} {addr : BitVec 62} {s t : State}
    (h : execIofenceC av wsi pr pw data addr s = .next t) : CommandEnd s t := by
  unfold execIofenceC at h
  split at h
  · split at h
    · next hw => cases h; exact .fenceFault hw
    · next hw => cases h; exact .fenceWrite wsi hw
  · cases h; exact .fence wsi

/-- Every command ends in one of the ways of `CommandEnd`. -/
theorem exec_end {i : Instr} {s t : State} (h : exec i s = .next t) : CommandEnd s t := by
  cases i with
  | iotinvalVma => cases h; exact .invalTlb _
  | iotinvalGvma =>
    dsimp only [exec, execIotinvalGvma] at h
    split at h <;> cases h
    · exact .illegal
    · exact .invalTlb _
  | iofenceC av wsi pr pw data addr => exact execIofenceC_end (pr := pr) (pw := pw) h
  | iodirInvalDdt => cases h; exact .invalCtx _
  | iodirInvalPdt =>
    dsimp only [exec, execIodirInvalPdt] at h
    split at h <;> cases h
    · exact .invalCtx _
    · exact .illegal
  | atsInval => exact sendAts_end h
  | atsPrgr => exact sendAts_end h

/-- Everything one move of the background thread can do: a turn of the command loop, or a pending action. -/
inductive ThreadTurn (s : State) : State → Prop where
  | leaveLoop : ThreadTurn s s.leaveLoop
  | fetchFault : ThreadTurn s s.afterFetch.stopMemFault
  | unknownCommand : ThreadTurn s s.afterFetch.stopIllegal
  | command {t : State} (h : CommandEnd s.afterFetch t) : ThreadTurn s t
  | ddtp {d : Ddtp} (hidle : s.thread = .idle) (hd : s.pending.ddtp = some d) :
      ThreadTurn s { s with ddtp := d, pending := { s.pending with ddtp := none } }
  | cqControl (enable : Bool) : ThreadTurn s (cqControlStep enable s)
  | cqTail : ThreadTurn s { s with thread := .commands, pending := { s.pending with cqTail := false } }
  | fqControl (enable : Bool) :
      ThreadTurn s { s with fq := s.fq.control enable, pending := { s.pending with fqControl := none } }
  | pqControl (enable : Bool) :
      ThreadTurn s { s with pq := s.pq.control enable, pending := { s.pending with pqControl := none } }
  | blocked : ThreadTurn s s

theorem commandStep_turn {s t : State} (h : commandStep s = .next t) : ThreadTurn s t := by
  unfold commandStep at h
  split at h
  · split at h
    · cases h; exact .fetchFault
    · split at h
      · exact .command (exec_end h)
      · cases h; exact .unknownCommand
  · cases h; exact .leaveLoop

theorem actionStep_turn {s t : State} (hidle : s.thread = .idle) (h : actionStep s = .next t) : ThreadTurn s t := by
  unfold actionStep at h
  split at h
  · next hd => cases h; exact .ddtp hidle hd
  · split at h
    · cases h; exact .cqControl _
    · split at h
      · cases h; exact .cqTail
      · split at h
        · cases h; exact .fqControl _
        · split at h
          · cases h; exact .pqControl _
          · split at h <;> cases h
            exact .blocked

/-- Every move of the background thread is one of the turns of `ThreadTurn`. -/
theorem threadStep_turn {s t : State} (h : threadStep s = .next t) : ThreadTurn s t := by
  unfold threadStep at h
  split at h
  · exact commandStep_turn h
  · next hidle => exact actionStep_turn hidle h

/-! ## Operations keep the state sound -/

theorem isPowerOfTwo_pos {n : Nat} (h : isPowerOfTwo n = true) : 0 < n := by
  have hn : n = 2 ^ n.log2 := by simpa [isPowerOfTwo] using h
  rw [hn]; exact Nat.two_pow_pos _

/-- What a sound ring is: a size that is a power of two, and two indices below it (R60, R63, R64). -/
def RingOk (size head tail : Nat) : Prop := isPowerOfTwo size = true ∧ head < size ∧ tail < size

namespace RingOk

variable {size head tail : Nat}

theorem mod (hsize : isPowerOfTwo size = true) (head tail : Nat) : RingOk size (head % size) (tail % size) :=
  ⟨hsize, Nat.mod_lt _ (isPowerOfTwo_pos hsize), Nat.mod_lt _ (isPowerOfTwo_pos hsize)⟩

theorem mod_head (h : RingOk size head tail) (v : Nat) : RingOk size (v % size) tail := by
  obtain ⟨hsize, -, htail⟩ := h
  exact ⟨hsize, Nat.mod_lt _ (isPowerOfTwo_pos hsize), htail⟩

theorem mod_tail (h : RingOk size head tail) (v : Nat) : RingOk size head (v % size) := by
  obtain ⟨hsize, hhead, -⟩ := h
  exact ⟨hsize, hhead, Nat.mod_lt _ (isPowerOfTwo_pos hsize)⟩

theorem zero (h : RingOk size head tail) : RingOk size 0 0 := by
  obtain ⟨hsize, -⟩ := h
  exact ⟨hsize, isPowerOfTwo_pos hsize, isPowerOfTwo_pos hsize⟩

end RingOk

/-- Every way a control action leaves a record queue, its ring is sound. -/
theorem RecQueue.control_ringOk {q : RecQueue} (h : RingOk q.size q.head q.tail) (enable : Bool) :
    RingOk (q.control enable).size (q.control enable).head (q.control enable).tail := by
  unfold RecQueue.control
  split
  · split
    · exact h
    · exact h.zero
  · exact h

theorem enqueue_ringOk {q q' : RecQueue} {int : IntReq} {rec : List Word} {s s' : State}
    (h : enqueue q int rec s = (q', s')) (hq : RingOk q.size q.head q.tail) : RingOk q'.size q'.head q'.tail := by
  obtain ⟨-, hsize, hhead, -, htail, -⟩ := enqueue_queue h
  rw [hsize, hhead]
  rcases htail with htail | htail <;> rw [htail]
  · exact hq
  · exact hq.mod_tail _

/-- An upsert keeps "no two elements have the same key", if its test picks out exactly the key of the new element. -/
theorem pairwise_upsert {E K : Type} {key : E → K} {same : E → Bool} {e : E} (hsame : ∀ x, same x = true ↔ key x = key e)
    {l : List E} (h : l.Pairwise fun a b => key a ≠ key b) : (upsert same e l).Pairwise fun a b => key a ≠ key b := by
  unfold upsert
  split
  · have hkey (x : E) : key (if same x then e else x) = key x := by
      split
      · next hx => exact ((hsame x).1 hx).symm
      · rfl
    simpa [List.pairwise_map, hkey] using h
  · next hany =>
    refine List.pairwise_append.2 ⟨h, List.pairwise_singleton _ _, fun a ha b hb => ?_⟩
    obtain rfl := List.mem_singleton.1 hb
    exact fun hk => hany (List.any_eq_true.2 ⟨a, ha, (hsame a).2 hk⟩)

namespace State.Inv

variable {s t : State}

theorem memWF (h : s.Inv) : s.mem.WF := And.left h

theorem cachesKeyed (h : s.Inv) : s.CachesKeyed := by
  obtain ⟨-, hkeys, -⟩ := h
  exact hkeys

theorem requestsOk (h : s.Inv) : s.RequestsOk := by
  obtain ⟨-, -, hreq, -⟩ := h
  exact hreq

theorem ringsOk (h : s.Inv) : s.RingsOk := by
  obtain ⟨-, -, -, hrings, -⟩ := h
  exact hrings

theorem emit (h : s.Inv) {o : Output} (ho : o.legal = true) : (s.emit o).Inv := by
  obtain ⟨hmem, hkeys, hreq, hrings, hids, htrace⟩ := h
  exact ⟨hmem, hkeys, hreq, hrings, hids, List.forall_mem_cons.2 ⟨ho, htrace⟩⟩

theorem logAccess (h : s.Inv) (dir : Dir) (a : Word) (n : Nat) (ok : Bool) : (s.logAccess dir a n ok).Inv := h.emit rfl

theorem event (h : s.Inv) (f : InFlight) {e : PerfEvent} (he : e ≠ .trq) : (s.event f e).Inv :=
  h.emit (by simpa [Output.legal] using he)

theorem signal (h : s.Inv) {i : IntReq} (hi : i ≠ .pm) : (s.signal i).Inv := h.emit (by simpa [Output.legal] using hi)

theorem withMem (h : s.Inv) {mem : Memory} (hmem : mem.WF) : State.Inv { s with mem := mem } := by
  obtain ⟨-, hrest⟩ := h
  exact ⟨hmem, hrest⟩

theorem memWrite (h : s.Inv) {u : State} {a : Word} {bs : List Byte} {ok : Bool} (hw : s.memWrite a bs = (u, ok)) :
    u.Inv := by
  rcases State.memWrite_cases hw with ⟨-, -, rfl⟩ | ⟨-, -, rfl⟩
  · exact h.logAccess _ _ _ _
  · exact (h.withMem (Memory.WF_store h.memWF a bs)).logAccess _ _ _ _

/-- New entries in the current generation of the context cache. -/
theorem withCtxCache (h : s.Inv) {c : Cache CtxEntry}
    (hkeys : c.current.entries.Pairwise fun a b => ¬ (a.ctx.devid = b.ctx.devid ∧ a.ctx.pid = b.ctx.pid))
    (hmodes : ∀ e ∈ c.current.entries, e.ctx.modesOk s.params = true) : State.Inv { s with ctxCache := c } := by
  obtain ⟨hmem, ⟨-, htlb⟩, ⟨-, hinflight⟩, hrest⟩ := h
  exact ⟨hmem, ⟨hkeys, htlb⟩, ⟨hmodes, hinflight⟩, hrest⟩

/-- New entries in the current generation of the IOTLB. -/
theorem withIotlb (h : s.Inv) {c : Cache TlbEntry}
    (hkeys : c.current.entries.Pairwise fun a b => ¬ (a.gscid = b.gscid ∧ a.pscid = b.pscid ∧ a.vpn = b.vpn)) :
    State.Inv { s with iotlb := c } := by
  obtain ⟨hmem, ⟨hctx, -⟩, hrest⟩ := h
  exact ⟨hmem, ⟨hctx, hkeys⟩, hrest⟩

theorem insertCtx (h : s.Inv) {ctx : Ctx} (hctx : ctx.modesOk s.params = true) : (s.insertCtx ctx).Inv := by
  refine h.withCtxCache ?_ fun e he => ?_
  · simpa using pairwise_upsert (key := fun e : CtxEntry => (e.ctx.devid, e.ctx.pid)) (e := { ctx, valid := true })
      (fun x => by simp [CtxEntry.hasKey]) (by simpa using h.cachesKeyed.1)
  · rcases mem_upsert he with he | rfl
    · exact h.requestsOk.1 e he
    · exact hctx

theorem insertTlb (h : s.Inv) (e : TlbEntry) : (s.insertTlb e).Inv := by
  refine h.withIotlb ?_
  simpa using pairwise_upsert (key := fun e : TlbEntry => (e.gscid, e.pscid, e.vpn)) (e := e)
    (fun x => by simp [TlbEntry.hasKey, and_assoc]) (by simpa using h.cachesKeyed.2)

theorem invalTlb (h : s.Inv) (scope : Scope) : (s.invalTlb scope).Inv := by
  refine h.withIotlb (List.pairwise_map.2 (h.cachesKeyed.2.imp fun {a b} hab => ?_))
  split <;> split <;> exact hab

theorem invalCtx (h : s.Inv) (which : CtxEntry → Bool) : (s.invalCtx which).Inv := by
  refine h.withCtxCache (List.pairwise_map.2 (h.cachesKeyed.1.imp fun {a b} hab => ?_)) fun e he => ?_
  · split <;> split <;> exact hab
  · obtain ⟨x, hx, rfl⟩ := List.mem_map.1 he
    have hmodes := h.requestsOk.1 x hx
    split <;> exact hmodes

theorem replaceCtx (h : s.Inv) : State.Inv { s with ctxCache := s.ctxCache.replace } := h.withCtxCache .nil (by simp)

theorem replaceTlb (h : s.Inv) : State.Inv { s with iotlb := s.iotlb.replace } := h.withIotlb .nil

/-- Releasing old generations touches neither current one. -/
theorem releaseGenerations (h : s.Inv) : s.releaseGenerations.Inv := h

theorem setInflight (h : s.Inv) {f : InFlight} (hf : f.ok s.params = true) : (s.setInflight f).Inv := by
  obtain ⟨hmem, hkeys, ⟨hctxs, hinflight⟩, hrings, ⟨hdistinct, hbelow⟩, htrace⟩ := h
  have hid (g : InFlight) : (if g.id = f.id then f else g).id = g.id := by
    split
    · next hg => exact hg.symm
    · rfl
  refine ⟨hmem, hkeys, ⟨hctxs, List.forall_mem_map.2 fun g hg => ?_⟩, hrings, ⟨?_, List.forall_mem_map.2 fun g hg => ?_⟩, htrace⟩
  · split
    · exact hf
    · exact hinflight g hg
  · simpa [List.pairwise_map, hid] using hdistinct
  · rw [hid]; exact hbelow g hg

theorem finish (h : s.Inv) {f : InFlight} {r : Result} (hr : r.okFor f.req.kind = true) : (s.finish f r).Inv := by
  obtain ⟨hmem, hkeys, ⟨hctxs, hinflight⟩, hrings, ⟨hdistinct, hbelow⟩, htrace⟩ := h
  have hsub : ∀ g ∈ s.inflight.filter fun g => g.id != f.id, g ∈ s.inflight := fun g hg => (List.mem_filter.1 hg).1
  exact ⟨hmem, hkeys, ⟨hctxs, fun g hg => hinflight g (hsub g hg)⟩, hrings,
    ⟨hdistinct.filter _, fun g hg => hbelow g (hsub g hg)⟩,
    List.forall_mem_cons.2 ⟨Result.legal_of_okFor hr f.id, htrace⟩⟩

theorem withCq (h : s.Inv) {q : CmdQueue} (hq : RingOk q.size q.head q.tail) : State.Inv { s with cq := q } := by
  obtain ⟨hmem, hkeys, hreq, ⟨-, hrest⟩, hids, htrace⟩ := h
  exact ⟨hmem, hkeys, hreq, ⟨hq, hrest⟩, hids, htrace⟩

theorem withFq (h : s.Inv) {q : RecQueue} (hq : RingOk q.size q.head q.tail) : State.Inv { s with fq := q } := by
  obtain ⟨hmem, hkeys, hreq, ⟨hcq, -, hpq⟩, hids, htrace⟩ := h
  exact ⟨hmem, hkeys, hreq, ⟨hcq, hq, hpq⟩, hids, htrace⟩

theorem withPq (h : s.Inv) {q : RecQueue} (hq : RingOk q.size q.head q.tail) : State.Inv { s with pq := q } := by
  obtain ⟨hmem, hkeys, hreq, ⟨hcq, hfq, -⟩, hids, htrace⟩ := h
  exact ⟨hmem, hkeys, hreq, ⟨hcq, hfq, hq⟩, hids, htrace⟩

theorem cqRing (h : s.Inv) : RingOk s.cq.size s.cq.head s.cq.tail := h.ringsOk.1

theorem fqRing (h : s.Inv) : RingOk s.fq.size s.fq.head s.fq.tail := by
  obtain ⟨-, hfq, -⟩ := h.ringsOk
  exact hfq

theorem pqRing (h : s.Inv) : RingOk s.pq.size s.pq.head s.pq.tail := by
  obtain ⟨-, -, hpq⟩ := h.ringsOk
  exact hpq

theorem withTrace (h : s.Inv) {l : List Output} (hl : ∀ o ∈ l, o.legal = true) :
    State.Inv { s with trace := l ++ s.trace } := by
  obtain ⟨hmem, hkeys, hreq, hrings, hids, htrace⟩ := h
  exact ⟨hmem, hkeys, hreq, hrings, hids, List.forall_mem_append.2 ⟨hl, htrace⟩⟩

theorem enqueueFq (h : s.Inv) (rec : List Word) : (s.enqueueFq rec).Inv := by
  obtain ⟨q, mem, l, heq, hmem, hq, hl⟩ := State.enqueueFq_state s rec
  rw [heq]
  have hring : RingOk q.size q.head q.tail := hq ▸ enqueue_ringOk (Prod.eta _).symm h.fqRing
  refine ((h.withMem (hmem h.memWF)).withFq hring).withTrace fun o ho => ?_
  rcases hl o ho with rfl | ⟨a, n, ok, rfl⟩ <;> rfl

theorem enqueuePq (h : s.Inv) (rec : List Word) : (s.enqueuePq rec).Inv := by
  obtain ⟨q, mem, l, heq, hmem, hq, hl⟩ := State.enqueuePq_state s rec
  rw [heq]
  have hring : RingOk q.size q.head q.tail := hq ▸ enqueue_ringOk (Prod.eta _).symm h.pqRing
  refine ((h.withMem (hmem h.memWF)).withPq hring).withTrace fun o ho => ?_
  rcases hl o ho with rfl | ⟨a, n, ok, rfl⟩ <;> rfl

theorem retire (h : s.Inv) : s.retire.Inv := h.withCq (h.cqRing.mod_head _)

theorem stopIllegal (h : s.Inv) : s.stopIllegal.Inv :=
  signal (s := { s with cq := { s.cq with cmdIll := true }, thread := .idle }) (h.withCq h.cqRing) (by decide)

theorem stopMemFault (h : s.Inv) : s.stopMemFault.Inv :=
  signal (s := { s with cq := { s.cq with cmdMf := true }, thread := .idle }) (h.withCq h.cqRing) (by decide)

theorem fenceInterrupt (h : s.Inv) (wsi : Bool) : (Machine.fenceInterrupt wsi s).Inv := by
  unfold Machine.fenceInterrupt
  split
  · exact (h.withCq h.cqRing).signal (by decide)
  · exact h

theorem afterFetch (h : s.Inv) : s.afterFetch.Inv :=
  logAccess (s := { s with cmdLatches := [] }) h _ _ _ _

theorem cqControlStep (h : s.Inv) (enable : Bool) : (Machine.cqControlStep enable s).Inv := by
  dsimp only [Machine.cqControlStep]
  split
  · split
    · exact h.withCq h.cqRing.zero
    · exact h.withCq h.cqRing
    · exact h
  · exact h.withCq h.cqRing

/-! ### Moves keep the state sound -/

theorem commandEnd (h : s.Inv) (hend : CommandEnd s t) : t.Inv := by
  cases hend with
  | illegal => exact h.stopIllegal
  | invalTlb scope => exact (h.invalTlb scope).retire
  | invalCtx which => exact (h.invalCtx which).retire
  | atsEvent => exact (h.emit rfl).retire
  | fence wsi => exact (h.fenceInterrupt wsi).retire
  | fenceWrite wsi hw => exact ((h.memWrite hw).fenceInterrupt wsi).retire
  | fenceFault hw => exact (h.memWrite hw).stopMemFault

theorem threadTurn (h : s.Inv) (hturn : ThreadTurn s t) : t.Inv := by
  cases hturn with
  | fetchFault => exact h.afterFetch.stopMemFault
  | unknownCommand => exact h.afterFetch.stopIllegal
  | command hend => exact h.afterFetch.commandEnd hend
  | cqControl enable => exact h.cqControlStep enable
  | fqControl enable => exact h.withFq (RecQueue.control_ringOk h.fqRing enable)
  | pqControl enable => exact h.withPq (RecQueue.control_ringOk h.pqRing enable)
  | leaveLoop => exact h
  | ddtp => exact h
  | cqTail => exact h
  | blocked => exact h

theorem requestEffect (h : s.Inv) {f : InFlight} (hf : f.ok s.params = true) (he : RequestEffect f s t) : t.Inv := by
  cases he with
  | nothing => exact h
  | event he => exact h.event f he
  | read => exact h.logAccess _ _ _ _
  | eventRead he => exact (h.event f he).logAccess _ _ _ _
  | write hw => exact h.memWrite hw
  | insertCtx hprog => exact h.insertCtx (by simpa [InFlight.ok, hprog, CtxPhase.ok] using hf)
  | insertTlb e => exact h.insertTlb e
  | replaceCtx => exact h.replaceCtx
  | replaceTlb => exact h.replaceTlb
  | enqueueFq rec => exact h.enqueueFq rec
  | enqueuePq rec => exact h.enqueuePq rec

theorem requestTurn (h : s.Inv) {f : InFlight} (hf : f.ok s.params = true) (hturn : RequestTurn f s t) : t.Inv := by
  cases hturn with
  | goes he _ _ hok => exact (h.requestEffect hf he).setInflight (he.params ▸ hok h.requestsOk hf)
  | goesReleasing he _ _ hok => exact ((h.requestEffect hf he).setInflight (he.params ▸ hok h.requestsOk hf)).releaseGenerations
  | returns hr => exact h.finish (by simpa [InFlight.ok, hr] using hf)

/-- A request found in flight is sound. -/
theorem lookup_ok (h : s.Inv) {id : Nat} {f : InFlight} (hf : s.lookupInflight id = some f) : f.ok s.params = true :=
  h.requestsOk.2 f (State.lookupInflight_some hf).2

theorem advance (h : s.Inv) {id : Nat} (hstep : Machine.advance id s = .next t) : t.Inv := by
  unfold Machine.advance at hstep
  split at hstep
  · next f hf => exact h.requestTurn (h.lookup_ok hf) (requestStep_turn hstep)
  · cases hstep; exact h

theorem latchRequest (h : s.Inv) (id k : Nat) : (Machine.latchRequest id k s).Inv := by
  unfold Machine.latchRequest
  split
  · exact h
  · next f hf =>
    split
    · exact h
    · have hok := h.lookup_ok hf
      exact h.setInflight hok

theorem latchCommand (h : s.Inv) (k : Nat) : (Machine.latchCommand k s).Inv := by
  unfold Machine.latchCommand
  split <;> exact h

/-- An arriving request is sound, and its number is new. -/
theorem arrive (h : s.Inv) (devid pid : Nat) (iova : Word) (kind : ReqKind) : (Machine.arrive devid pid iova kind s).Inv := by
  unfold Machine.arrive
  split
  · exact h.emit rfl
  · split
    · exact h.emit rfl
    · obtain ⟨hmem, hkeys, ⟨hctxs, hinflight⟩, hrings, ⟨hdistinct, hbelow⟩, htrace⟩ := h
      refine ⟨hmem, hkeys, ⟨hctxs, ?_⟩, hrings, ⟨?_, ?_⟩, htrace⟩
      · exact List.forall_mem_append.2 ⟨hinflight, List.forall_mem_singleton.2 rfl⟩
      · refine List.pairwise_append.2 ⟨hdistinct, List.pairwise_singleton _ _, fun g hg f hf => ?_⟩
        obtain rfl := List.mem_singleton.1 hf
        exact (hbelow g hg).ne
      · exact List.forall_mem_append.2 ⟨fun g hg => (hbelow g hg).trans (Nat.lt_succ_self _),
          List.forall_mem_singleton.2 (Nat.lt_succ_self _)⟩

theorem configQueue (h : s.Inv) (q : QueueId) (base : Word) (size : Nat) : (Machine.configQueue q base size s).Inv := by
  unfold Machine.configQueue
  split
  · next hconfig =>
    have hsize : isPowerOfTwo size = true := (Bool.and_eq_true_iff.1 hconfig).1
    cases q with
    | cq => exact h.withCq (RingOk.mod hsize _ _)
    | fq => exact h.withFq (RingOk.mod hsize _ _)
    | pq => exact h.withPq (RingOk.mod hsize _ _)
  · exact h.emit rfl

theorem writeHead (h : s.Inv) (q : QueueId) (v : Nat) : (Machine.writeHead q v s).Inv := by
  cases q with
  | cq => exact h.withCq (h.cqRing.mod_head v)
  | fq => exact h.withFq (h.fqRing.mod_head v)
  | pq => exact h.withPq (h.pqRing.mod_head v)

theorem writeDdtp (h : s.Inv) (v : Word) : (Machine.writeDdtp v s).Inv := by
  unfold Machine.writeDdtp
  split
  · exact h
  · exact h.emit rfl

theorem softwareStep (h : s.Inv) (a : SwAction) : (Machine.softwareStep a s).Inv := by
  cases a with
  | store addr size value => exact h.withMem (Memory.WF_store h.memWF _ _)
  | setFailing ranges => exact h
  | writeDdtp v => exact h.writeDdtp v
  | configQueue q base size => exact h.configQueue q base size
  | controlQueue q enable => cases q <;> exact h
  | writeCqTail v => exact h.withCq (h.cqRing.mod_tail v)
  | writeHead q v => exact h.writeHead q v
  | clearCq ill mf fence => exact h.withCq h.cqRing
  | clearFq overflow memFault ip => exact h.withFq h.fqRing
  | clearPq overflow memFault ip => exact h.withPq h.pqRing
  | debugRequest => exact h

/-- After realize the block has empty caches, no request in flight and rings of the reset size; the trace and memory were
sound before. -/
theorem realize (h : s.Inv) : (Machine.realize s).Inv := by
  obtain ⟨hmem, -, -, -, -, htrace⟩ := h
  have hring : RingOk 2 0 0 := ⟨by decide, by decide, by decide⟩
  exact ⟨hmem, ⟨.nil, .nil⟩, ⟨List.forall_mem_nil _, List.forall_mem_nil _⟩, ⟨hring, hring, hring⟩,
    ⟨.nil, List.forall_mem_nil _⟩, htrace⟩

theorem perform (h : s.Inv) {m : Move} (hstep : Machine.perform m s = .next t) : t.Inv := by
  cases m with
  | thread => exact h.threadTurn (threadStep_turn hstep)
  | latchCommand k => cases hstep; exact h.latchCommand k
  | request devid pid iova kind => cases hstep; exact h.arrive devid pid iova kind
  | advance id => exact h.advance hstep
  | latch id k => cases hstep; exact h.latchRequest id k
  | software a => cases hstep; exact h.softwareStep a
  | realize => cases hstep; exact h.realize

end State.Inv

/-- A step performs one move, with what is left of the schedule. -/
theorem step_eq_perform (s : State) : ∃ m rest, step s = perform m { s with schedule := rest } := by
  unfold step stepMove
  split
  · exact ⟨_, _, rfl⟩
  · exact ⟨_, s.schedule, rfl⟩

/-- Settles O57: the schedule is no part of soundness, and every move keeps the state sound. -/
theorem stepKeepsSoundness : Obligations.StepKeepsSoundness := by
  intro s t hs h
  obtain ⟨m, rest, heq⟩ := step_eq_perform s
  have hrest : State.Inv { s with schedule := rest } := hs
  exact hrest.perform (heq ▸ h)

/-! ## What the moves leave unchanged -/

theorem latchCommand_frame (k : Nat) (s : State) : ∃ ls, latchCommand k s = { s with cmdLatches := ls } := by
  unfold latchCommand
  split
  · exact ⟨_, rfl⟩
  · exact ⟨s.cmdLatches, rfl⟩

theorem latchRequest_frame (id k : Nat) (s : State) : ∃ fs, latchRequest id k s = { s with inflight := fs } := by
  unfold latchRequest
  split
  · exact ⟨s.inflight, rfl⟩
  · split
    · exact ⟨s.inflight, rfl⟩
    · exact ⟨_, rfl⟩

theorem arrive_frame (devid pid : Nat) (iova : Word) (kind : ReqKind) (s : State) :
    ∃ fs n l, arrive devid pid iova kind s = { s with inflight := fs, nextId := n, trace := l } := by
  unfold arrive
  split
  · exact ⟨s.inflight, s.nextId, _, rfl⟩
  · split
    · exact ⟨s.inflight, s.nextId, _, rfl⟩
    · exact ⟨_, _, s.trace, rfl⟩

/-- What each move can do. The early reads, the arrival of a request and a step of a request that is not in flight are
bookkeeping: they touch what has been read early, the requests in flight, their numbers and the trace. -/
inductive MoveTurn (s : State) : Move → State → Prop where
  | thread {t : State} (h : ThreadTurn s t) : MoveTurn s .thread t
  | software (a : SwAction) : MoveTurn s (.software a) (softwareStep a s)
  | realize : MoveTurn s .realize (realize s)
  | request {id : Nat} {f : InFlight} {t : State} (h : RequestTurn f s t) (hsame : SameControl s t) :
      MoveTurn s (.advance id) t
  | bookkeeping {m : Move} (ls : List Latch) (fs : List InFlight) (n : Nat) (l : List Output) :
      MoveTurn s m { s with cmdLatches := ls, inflight := fs, nextId := n, trace := l }

theorem perform_turn {m : Move} {s t : State} (h : perform m s = .next t) : MoveTurn s m t := by
  cases m with
  | thread => exact .thread (threadStep_turn h)
  | software a => cases h; exact .software a
  | realize => cases h; exact .realize
  | advance id =>
    have hsame := advance_sameControl h
    dsimp only [perform, advance] at h
    split at h
    · exact .request (requestStep_turn h) hsame
    · cases h; exact .bookkeeping s.cmdLatches s.inflight s.nextId s.trace
  | latchCommand k =>
    cases h
    obtain ⟨ls, heq⟩ := latchCommand_frame k s
    rw [heq]; exact .bookkeeping ls s.inflight s.nextId s.trace
  | latch id k =>
    cases h
    obtain ⟨fs, heq⟩ := latchRequest_frame id k s
    rw [heq]; exact .bookkeeping s.cmdLatches fs s.nextId s.trace
  | request devid pid iova kind =>
    cases h
    obtain ⟨fs, n, l, heq⟩ := arrive_frame devid pid iova kind s
    rw [heq]; exact .bookkeeping s.cmdLatches fs n l

/-- Software changes no parameter, and not even a write of its register changes `ddtp` at once (R34). -/
theorem softwareStep_params_ddtp (a : SwAction) (s : State) :
    (softwareStep a s).params = s.params ∧ (softwareStep a s).ddtp = s.ddtp := by
  cases a with
  | writeDdtp v => dsimp only [softwareStep, writeDdtp]; split <;> exact ⟨rfl, rfl⟩
  | configQueue q base size => dsimp only [softwareStep, configQueue]; split <;> cases q <;> exact ⟨rfl, rfl⟩
  | controlQueue q enable => cases q <;> exact ⟨rfl, rfl⟩
  | writeHead q v => cases q <;> exact ⟨rfl, rfl⟩
  | _ => exact ⟨rfl, rfl⟩

theorem softwareStep_cq_head {a : SwAction} {s : State} (h : (softwareStep a s).cq.head ≠ s.cq.head) :
    (∃ v, a = .writeHead .cq v) ∨ ∃ base size, a = .configQueue .cq base size := by
  cases a with
  | writeHead q v =>
    cases q with
    | cq => exact .inl ⟨v, rfl⟩
    | fq => exact absurd rfl h
    | pq => exact absurd rfl h
  | configQueue q base size =>
    dsimp only [softwareStep, configQueue] at h
    split at h
    · cases q with
      | cq => exact .inr ⟨base, size, rfl⟩
      | fq => exact absurd rfl h
      | pq => exact absurd rfl h
    · exact absurd rfl h
  | writeDdtp v => dsimp only [softwareStep, writeDdtp] at h; split at h <;> exact absurd rfl h
  | controlQueue q enable => cases q <;> exact absurd rfl h
  | _ => exact absurd rfl h

/-- The error bits set in a command queue are still set (R61). -/
def CmdQueue.KeepsErrors (q q' : CmdQueue) : Prop :=
  (q.cmdIll = true → q'.cmdIll = true) ∧ (q.cmdMf = true → q'.cmdMf = true)

/-- The error bits set in a record queue are still set (R65). -/
def RecQueue.KeepsErrors (q q' : RecQueue) : Prop :=
  (q.overflow = true → q'.overflow = true) ∧ (q.memFault = true → q'.memFault = true)

theorem CmdQueue.KeepsErrors.refl (q : CmdQueue) : q.KeepsErrors q := ⟨id, id⟩

theorem RecQueue.KeepsErrors.refl (q : RecQueue) : q.KeepsErrors q := ⟨id, id⟩

theorem enqueue_keepsErrors (q : RecQueue) (int : IntReq) (rec : List Word) (s : State) :
    q.KeepsErrors (enqueue q int rec s).1 := by
  obtain ⟨-, -, -, -, -, hof, hmf, -⟩ := enqueue_queue (Prod.eta (enqueue q int rec s)).symm
  exact ⟨hof, hmf⟩

/-- What a command leaves unchanged of what the statements below are about. -/
structure CommandKeeps (s t : State) : Prop where
  params : t.params = s.params
  ddtp : t.ddtp = s.ddtp
  fq : t.fq = s.fq
  pq : t.pq = s.pq
  cq : s.cq.KeepsErrors t.cq

theorem CommandKeeps.trans {s t u : State} (h : CommandKeeps s t) (k : CommandKeeps t u) : CommandKeeps s u :=
  ⟨k.params.trans h.params, k.ddtp.trans h.ddtp, k.fq.trans h.fq, k.pq.trans h.pq,
    k.cq.1 ∘ h.cq.1, k.cq.2 ∘ h.cq.2⟩

theorem CommandKeeps.memWrite {s u : State} {a : Word} {bs : List Byte} {ok : Bool} (hw : s.memWrite a bs = (u, ok)) :
    CommandKeeps s u := by
  rcases State.memWrite_cases hw with ⟨-, -, rfl⟩ | ⟨-, -, rfl⟩ <;> exact ⟨rfl, rfl, rfl, rfl, .refl _⟩

theorem CommandKeeps.fence (wsi : Bool) (s : State) : CommandKeeps s (fenceInterrupt wsi s).retire := by
  cases wsi <;> exact ⟨rfl, rfl, rfl, rfl, id, id⟩

theorem CommandKeeps.stopMemFault (s : State) : CommandKeeps s s.stopMemFault :=
  ⟨rfl, rfl, rfl, rfl, id, fun _ => rfl⟩

theorem CommandKeeps.stopIllegal (s : State) : CommandKeeps s s.stopIllegal :=
  ⟨rfl, rfl, rfl, rfl, fun _ => rfl, id⟩

theorem CommandEnd.keeps {s t : State} (h : CommandEnd s t) : CommandKeeps s t := by
  cases h with
  | illegal => exact .stopIllegal s
  | invalTlb scope => exact ⟨rfl, rfl, rfl, rfl, id, id⟩
  | invalCtx which => exact ⟨rfl, rfl, rfl, rfl, id, id⟩
  | atsEvent => exact ⟨rfl, rfl, rfl, rfl, id, id⟩
  | fence wsi => exact .fence wsi s
  | fenceWrite wsi hw => exact (CommandKeeps.memWrite hw).trans (.fence wsi _)
  | fenceFault hw => exact (CommandKeeps.memWrite hw).trans (.stopMemFault _)

theorem CommandKeeps.afterFetch (s : State) : CommandKeeps s s.afterFetch := ⟨rfl, rfl, rfl, rfl, .refl _⟩

theorem ThreadTurn.params {s t : State} (h : ThreadTurn s t) : t.params = s.params := by
  cases h with
  | command hend => exact ((CommandKeeps.afterFetch s).trans hend.keeps).params
  | cqControl enable =>
    obtain ⟨q, c, heq⟩ := cqControlStep_state enable s
    rw [heq]
  | _ => rfl

/-- Only the pending change alters `ddtp` in a move of the thread. -/
theorem ThreadTurn.ddtp_cases {s t : State} (h : ThreadTurn s t) :
    t.ddtp = s.ddtp ∨ (s.thread = .idle ∧ s.pending.ddtp = some t.ddtp ∧ t.pending.ddtp = none) := by
  cases h with
  | ddtp hidle hd => exact .inr ⟨hidle, hd, rfl⟩
  | command hend => exact .inl ((CommandKeeps.afterFetch s).trans hend.keeps).ddtp
  | cqControl enable =>
    obtain ⟨q, c, heq⟩ := cqControlStep_state enable s
    exact .inl (by rw [heq])
  | _ => exact .inl rfl

/-! ## The parameters (R36) -/

theorem perform_params {m : Move} {s t : State} (h : perform m s = .next t) : t.params = s.params := by
  cases perform_turn h with
  | thread hturn => exact hturn.params
  | software a => exact (softwareStep_params_ddtp a s).1
  | realize => rfl
  | request _ hsame => exact hsame.params
  | bookkeeping => rfl

/-- Settles O59: a step is one move on the state with its schedule shortened, and no move changes the parameters. -/
theorem parametersAreConstant : Obligations.ParametersAreConstant := by
  intro s t h
  obtain ⟨m, rest, heq⟩ := step_eq_perform s
  have hparams := perform_params (heq ▸ h)
  exact hparams

/-! ## The head of the command queue (R62) -/

/-- Settles O18: of the moves that reach the command queue, software's alone are looked into; the moves of a request
leave the thread's part of the state as it is by their frames. -/
theorem onlyTheThreadAdvancesCqHead : Obligations.OnlyTheThreadAdvancesCqHead := by
  intro m s t h
  constructor
  · intro hhead
    cases perform_turn h with
    | thread => exact .inl rfl
    | realize => exact .inr (.inl rfl)
    | software a =>
      rcases softwareStep_cq_head hhead with ⟨v, rfl⟩ | ⟨base, size, rfl⟩
      · exact .inr (.inr (.inl ⟨v, rfl⟩))
      · exact .inr (.inr (.inr ⟨base, size, rfl⟩))
    | request _ hsame => exact absurd (congrArg CmdQueue.head hsame.cq) hhead
    | bookkeeping => exact absurd rfl hhead
  · rintro (⟨id, rfl⟩ | ⟨id, k, rfl⟩ | ⟨devid, pid, iova, kind, rfl⟩)
    · have hsame := advance_sameControl h
      exact ⟨hsame.cq, hsame.thread, hsame.ddtp, hsame.pending, hsame.cmdLatches⟩
    · cases h
      obtain ⟨fs, heq⟩ := latchRequest_frame id k s
      rw [heq]; exact ⟨rfl, rfl, rfl, rfl, rfl⟩
    · cases h
      obtain ⟨fs, n, l, heq⟩ := arrive_frame devid pid iova kind s
      rw [heq]; exact ⟨rfl, rfl, rfl, rfl, rfl⟩

/-! ## The `ddtp` register (R33, R34) -/

/-- The modes of R121 in the order of their encodings. -/
theorem ddtpMode_of_field (m : BitVec 4) :
    [DdtpMode.off, .bare, .lvl1, .lvl2, .lvl3][m.toNat]? =
      if m = 0#4 then some .off else if m = 1#4 then some .bare else if m = 2#4 then some .lvl1
      else if m = 3#4 then some .lvl2 else if m = 4#4 then some .lvl3 else none := by
  revert m; decide

/-- The mode that a value written to the register asks for; none if a reserved bit is set or the mode is reserved. -/
def ddtpModeOf (v : Word) : Option DdtpMode :=
  if v.extractLsb' 5 5 = 0#5 ∧ v.extractLsb' 54 10 = 0#10 then
    [DdtpMode.off, .bare, .lvl1, .lvl2, .lvl3][(v.extractLsb' 0 4).toNat]?
  else none

/-- The register file takes a value exactly if it asks for a mode. -/
theorem Ddtp.ofWord_eq (v : Word) :
    Ddtp.ofWord v = (ddtpModeOf v).map fun mode => { mode, ppn := v.extractLsb' 10 44 } := by
  unfold Ddtp.ofWord ddtpModeOf
  rw [ddtpMode_of_field]
  by_cases hreserved : v.extractLsb' 5 5 = 0#5 ∧ v.extractLsb' 54 10 = 0#10
  · obtain ⟨hlow, hhigh⟩ := hreserved
    rw [if_neg (by simp [hlow, hhigh]), if_pos (And.intro hlow hhigh)]
    dsimp only
    split_ifs <;> rfl
  · rw [if_neg hreserved]
    exact if_pos (not_and_or.1 hreserved)

theorem writeDdtp_of_some {v : Word} {mode : DdtpMode} (h : ddtpModeOf v = some mode) (s : State) :
    writeDdtp v s = { s with pending := { s.pending with ddtp := some { mode, ppn := v.extractLsb' 10 44 } } } := by
  simp [writeDdtp, Ddtp.ofWord_eq, h]

theorem writeDdtp_of_none {v : Word} (h : ddtpModeOf v = none) (s : State) :
    writeDdtp v s = s.emit (.rejected .illegalDdtp) := by
  simp [writeDdtp, Ddtp.ofWord_eq, h]

theorem perform_ddtp {m : Move} {s t : State} (h : perform m s = .next t) :
    t.ddtp = s.ddtp ∨ (m = .thread ∧ s.thread = .idle ∧ s.pending.ddtp = some t.ddtp ∧ t.pending.ddtp = none) ∨
      m = .realize := by
  cases perform_turn h with
  | thread hturn => exact hturn.ddtp_cases.imp_right fun hd => .inl ⟨rfl, hd⟩
  | software a => exact .inl ((softwareStep_params_ddtp a s).2)
  | realize => exact .inr (.inr rfl)
  | request _ hsame => exact .inl hsame.ddtp
  | bookkeeping => exact .inl rfl

/-- Settles O21: the register file takes what `ddtpModeOf` accepts, and no move but the thread's and realize reaches
`ddtp`. -/
theorem ddtpChangesOnlyAsynchronously : Obligations.DdtpChangesOnlyAsynchronously := by
  refine ⟨fun v s => ?_, fun m s t h hne => (perform_ddtp h).resolve_left hne⟩
  split
  · next mode hmode => exact writeDdtp_of_some hmode s
  · next hmode => exact writeDdtp_of_none hmode s

/-! ## The status bits (R61, R65) -/

theorem RequestEffect.recQueues_keepErrors {f : InFlight} {s t : State} (h : RequestEffect f s t) :
    s.fq.KeepsErrors t.fq ∧ s.pq.KeepsErrors t.pq := by
  cases h with
  | write hw =>
    have hkeeps := CommandKeeps.memWrite hw
    rw [hkeeps.fq, hkeeps.pq]; exact ⟨.refl _, .refl _⟩
  | enqueueFq rec =>
    obtain ⟨q, mem, l, heq, -, hq, -⟩ := State.enqueueFq_state s rec
    rw [heq]; exact ⟨hq ▸ enqueue_keepsErrors s.fq .fq rec s, .refl _⟩
  | enqueuePq rec =>
    obtain ⟨q, mem, l, heq, -, hq, -⟩ := State.enqueuePq_state s rec
    rw [heq]; exact ⟨.refl _, hq ▸ enqueue_keepsErrors s.pq .pq rec s⟩
  | _ => exact ⟨.refl _, .refl _⟩

theorem RequestTurn.recQueues_keepErrors {f : InFlight} {s t : State} (h : RequestTurn f s t) :
    s.fq.KeepsErrors t.fq ∧ s.pq.KeepsErrors t.pq := by
  cases h with
  | goes he => exact he.recQueues_keepErrors
  | goesReleasing he => exact he.recQueues_keepErrors
  | returns => exact ⟨.refl _, .refl _⟩

/-- Why an error bit of the command queue may be gone after the move `m`. -/
def CmdQueue.ErrorsAfter (m : Move) (q q' : CmdQueue) : Prop :=
  q.KeepsErrors q' ∨
  (∃ ill mf fence, m = .software (.clearCq ill mf fence) ∧
    q' = { q with cmdIll := q.cmdIll && !ill, cmdMf := q.cmdMf && !mf, fenceWIp := q.fenceWIp && !fence }) ∨
  (m = .thread ∧ q'.state = .enabling)

/-- Why an error bit of a record queue, which software clears with `clear`, may be gone after the move `m`. -/
def RecQueue.ErrorsAfter (clear : Bool → Bool → Bool → SwAction) (m : Move) (q q' : RecQueue) : Prop :=
  q.KeepsErrors q' ∨
  (∃ overflow memFault ip, m = .software (clear overflow memFault ip) ∧ q' = q.clear overflow memFault ip) ∨
  (m = .thread ∧ q.active = false ∧ q'.active = true)

/-- Why error bits of the three queues may be gone after the move `m`. -/
structure ErrorsAfter (m : Move) (s t : State) : Prop where
  cq : s.cq.ErrorsAfter m t.cq
  fq : s.fq.ErrorsAfter .clearFq m t.fq
  pq : s.pq.ErrorsAfter .clearPq m t.pq

theorem ErrorsAfter.of_keeps {m : Move} {s t : State} (hcq : s.cq.KeepsErrors t.cq) (hfq : s.fq.KeepsErrors t.fq)
    (hpq : s.pq.KeepsErrors t.pq) : ErrorsAfter m s t := ⟨.inl hcq, .inl hfq, .inl hpq⟩

/-- Enabling clears error bits only where it takes the queue from DISABLED to ENABLING (R390). -/
theorem cqControlStep_errors (enable : Bool) (s : State) : s.cq.ErrorsAfter .thread (cqControlStep enable s).cq := by
  dsimp only [cqControlStep]
  split
  · split
    · exact .inr (.inr ⟨rfl, rfl⟩)
    · exact .inl (.refl _)
    · exact .inl (.refl _)
  · exact .inl (.refl _)

/-- Enabling clears error bits only where it takes the queue from inactive to active (R437). -/
theorem RecQueue.control_errors (clear : Bool → Bool → Bool → SwAction) (q : RecQueue) (enable : Bool) :
    q.ErrorsAfter clear .thread (q.control enable) := by
  unfold RecQueue.control
  split
  · split
    · exact .inl (.refl _)
    · next hactive => exact .inr (.inr ⟨rfl, by simpa using hactive, rfl⟩)
  · exact .inl (.refl _)

theorem CommandKeeps.errors {m : Move} {s t : State} (h : CommandKeeps s t) : ErrorsAfter m s t := by
  refine .of_keeps h.cq ?_ ?_
  · rw [h.fq]; exact .refl _
  · rw [h.pq]; exact .refl _

theorem ThreadTurn.errors {s t : State} (h : ThreadTurn s t) : ErrorsAfter .thread s t := by
  cases h with
  | fetchFault => exact ((CommandKeeps.afterFetch s).trans (.stopMemFault _)).errors
  | unknownCommand => exact ((CommandKeeps.afterFetch s).trans (.stopIllegal _)).errors
  | command hend => exact ((CommandKeeps.afterFetch s).trans hend.keeps).errors
  | cqControl enable =>
    obtain ⟨q, c, heq⟩ := cqControlStep_state enable s
    exact ⟨cqControlStep_errors enable s, by rw [heq]; exact .inl (.refl _), by rw [heq]; exact .inl (.refl _)⟩
  | fqControl enable => exact ⟨.inl (.refl _), s.fq.control_errors _ enable, .inl (.refl _)⟩
  | pqControl enable => exact ⟨.inl (.refl _), .inl (.refl _), s.pq.control_errors _ enable⟩
  | _ => exact .of_keeps (.refl _) (.refl _) (.refl _)

theorem softwareStep_errors (a : SwAction) (s : State) : ErrorsAfter (.software a) s (softwareStep a s) := by
  cases a with
  | clearCq ill mf fence => exact ⟨.inr (.inl ⟨ill, mf, fence, rfl, rfl⟩), .inl (.refl _), .inl (.refl _)⟩
  | clearFq overflow memFault ip => exact ⟨.inl (.refl _), .inr (.inl ⟨overflow, memFault, ip, rfl, rfl⟩), .inl (.refl _)⟩
  | clearPq overflow memFault ip => exact ⟨.inl (.refl _), .inl (.refl _), .inr (.inl ⟨overflow, memFault, ip, rfl, rfl⟩)⟩
  | writeDdtp v => dsimp only [softwareStep, writeDdtp]; split <;> exact .of_keeps ⟨id, id⟩ ⟨id, id⟩ ⟨id, id⟩
  | configQueue q base size =>
    dsimp only [softwareStep, configQueue]
    split <;> cases q <;> exact .of_keeps ⟨id, id⟩ ⟨id, id⟩ ⟨id, id⟩
  | controlQueue q enable => cases q <;> exact .of_keeps ⟨id, id⟩ ⟨id, id⟩ ⟨id, id⟩
  | writeHead q v => cases q <;> exact .of_keeps ⟨id, id⟩ ⟨id, id⟩ ⟨id, id⟩
  | _ => exact .of_keeps ⟨id, id⟩ ⟨id, id⟩ ⟨id, id⟩

theorem perform_errors {m : Move} {s t : State} (h : perform m s = .next t) (hm : m ≠ .realize) : ErrorsAfter m s t := by
  cases perform_turn h with
  | thread hturn => exact hturn.errors
  | software a => exact softwareStep_errors a s
  | realize => exact absurd rfl hm
  | request hturn hsame =>
    obtain ⟨hfq, hpq⟩ := hturn.recQueues_keepErrors
    exact .of_keeps (hsame.cq ▸ .refl _) hfq hpq
  | bookkeeping => exact .of_keeps (.refl _) (.refl _) (.refl _)

/-- A set bit that "and not" clears was asked to be cleared. -/
theorem eq_true_of_and_not {b clear : Bool} (hb : b = true) (h : (b && !clear) = false) : clear = true := by
  simpa [hb] using h

/-- A bit that is kept is not gone. -/
theorem not_cleared_of_kept {b b' : Bool} (hkeep : b = true → b' = true) (hb : b = true) : ¬ b' = false :=
  Bool.eq_false_iff.not.2 (not_not.2 (hkeep hb))

/-- A bit of the command queue is gone only by its own clearing or by the enabling. -/
theorem CmdQueue.ErrorsAfter.cleared {m : Move} {q q' : CmdQueue} (h : q.ErrorsAfter m q') :
    (q.cmdIll = true → q'.cmdIll = false →
      (∃ mf f, m = .software (.clearCq true mf f)) ∨ (m = .thread ∧ q'.state = .enabling)) ∧
    (q.cmdMf = true → q'.cmdMf = false →
      (∃ ill f, m = .software (.clearCq ill true f)) ∨ (m = .thread ∧ q'.state = .enabling)) := by
  rcases h with ⟨hill, hmf⟩ | ⟨ill, mf, fence, rfl, rfl⟩ | hen
  · exact ⟨fun hset hclear => absurd hclear (not_cleared_of_kept hill hset),
      fun hset hclear => absurd hclear (not_cleared_of_kept hmf hset)⟩
  · exact ⟨fun hset hclear => .inl ⟨mf, fence, by rw [eq_true_of_and_not hset hclear]⟩,
      fun hset hclear => .inl ⟨ill, fence, by rw [eq_true_of_and_not hset hclear]⟩⟩
  · exact ⟨fun _ _ => .inr hen, fun _ _ => .inr hen⟩

/-- A bit of a record queue is gone only by its own clearing or by the enabling. -/
theorem RecQueue.ErrorsAfter.cleared {clear : Bool → Bool → Bool → SwAction} {m : Move} {q q' : RecQueue}
    (h : q.ErrorsAfter clear m q') :
    (q.overflow = true → q'.overflow = false →
      (∃ mf ip, m = .software (clear true mf ip)) ∨ (m = .thread ∧ q.active = false ∧ q'.active = true)) ∧
    (q.memFault = true → q'.memFault = false →
      (∃ f ip, m = .software (clear f true ip)) ∨ (m = .thread ∧ q.active = false ∧ q'.active = true)) := by
  rcases h with ⟨hof, hmf⟩ | ⟨overflow, memFault, ip, rfl, rfl⟩ | hen
  · exact ⟨fun hset hclear => absurd hclear (not_cleared_of_kept hof hset),
      fun hset hclear => absurd hclear (not_cleared_of_kept hmf hset)⟩
  · exact ⟨fun hset hclear => .inl ⟨memFault, ip, by rw [eq_true_of_and_not hset hclear]⟩,
      fun hset hclear => .inl ⟨overflow, ip, by rw [eq_true_of_and_not hset hclear]⟩⟩
  · exact ⟨fun _ _ => .inr hen, fun _ _ => .inr hen⟩

/-- Settles O19: queue by queue, a move keeps the error bits, or is software's clearing of that queue, where a bit
that is gone is one it was asked to clear, or enables the queue. -/
theorem statusBitsAreSticky : Obligations.StatusBitsAreSticky := by
  intro m s t h hm
  obtain ⟨hcq, hfq, hpq⟩ := perform_errors h hm
  obtain ⟨hill, hmf⟩ := hcq.cleared
  obtain ⟨hfqOf, hfqMf⟩ := hfq.cleared
  exact ⟨hill, hmf, hfqOf, hfqMf, hpq.cleared⟩

/-! ## The reset values (R470) -/

/-- Each of the three kinds of reset state is one that realize leaves: a reset state is realized onto itself. -/
theorem exists_realize_of_reset {s : State}
    (h : s = State.reset ∨ (∃ p, s = State.ofParams p) ∨ ∃ u, perform .realize u = .next s) : ∃ u, s = realize u := by
  rcases h with rfl | ⟨p, rfl⟩ | ⟨u, hu⟩
  · exact ⟨State.reset, rfl⟩
  · exact ⟨State.ofParams p, rfl⟩
  · cases hu; exact ⟨u, rfl⟩

/-- Settles O54: the values that realize gives every field of the block. -/
theorem resetState : Obligations.ResetState := by
  intro s h
  obtain ⟨u, rfl⟩ := exists_realize_of_reset h
  exact ⟨rfl, rfl, rfl, rfl, rfl, rfl, rfl, rfl, rfl, rfl, rfl, rfl, rfl, rfl, rfl, rfl, rfl, rfl⟩

end Sys2Proof.Machine

/-! Proofs for 20_memory.md: who writes memory (R81, and the spec's own inference 41_translation.md R293). -/

namespace Sys2Proof.Machine

/-! ## Which steps of a request write memory

Every phase but those of `Progress.Writes` leaves memory as it was. A phase that reads only logs its access, and the parts
of the data path that a read leads to do no more than move the request on (`GoesOn`). -/

/-- The places of a request whose step may write memory: the two reports of a failure, and the three writes of the MSI
path. -/
inductive Progress.Writes : Progress → Prop where
  | reportContext (cause : Cause) (dtf : Bool) : Progress.Writes (.resolving (.report cause dtf))
  | reportTranslation (ctx : Ctx) (cause : Cause) (gpa2 : Word) : Progress.Writes (.translating ctx (.report cause gpa2))
  | forward (ctx : Ctx) (target data : Word) (size : AccessSize) :
      Progress.Writes (.translating ctx (.msiForward target data size))
  | pendingWrite (ctx : Ctx) (pa id m1 pending : Word) :
      Progress.Writes (.translating ctx (.mrifPendingWrite pa id m1 pending))
  | notice (ctx : Ctx) (m1 : Word) : Progress.Writes (.translating ctx (.mrifNotice m1))

theorem GoesOn.mem {f : InFlight} {s t : State} {H : Prop} (h : GoesOn f s t H) : t.mem = s.mem := by
  obtain ⟨q, rfl, -⟩ := h
  rfl

section
variable (f : InFlight) (ctx : Ctx) (s : State)

/-! ### Context resolution -/

theorem ctxLookupStep_mem : (ctxLookupStep f s).mem = s.mem := by
  dsimp only [ctxLookupStep]
  split
  · split <;> rfl
  · rfl

theorem ctxMakeRoomStep_mem : (ctxMakeRoomStep f s).mem = s.mem := by
  unfold ctxMakeRoomStep
  split <;> rfl

theorem ctxWalkStep_mem : (ctxWalkStep f s).mem = s.mem := by
  unfold ctxWalkStep
  split
  · rfl
  · rfl
  · split <;> rfl

theorem ctxDdEntryStep_mem (lvl : Nat) (page : Word) : (ctxDdEntryStep f lvl page s).mem = s.mem := by
  dsimp only [ctxDdEntryStep]
  split <;> rfl

theorem ctxDdLeafStep_mem (page : Word) : (ctxDdLeafStep f page s).mem = s.mem :=
  (ctxContinue_goesOn f _ _).mem

theorem ctxPdEntryStep_mem (lvl : Nat) (page : Word) : (ctxPdEntryStep f ctx lvl page s).mem = s.mem := by
  dsimp only [ctxPdEntryStep]
  split <;> rfl

theorem ctxPdLeafStep_mem (page : Word) : (ctxPdLeafStep f ctx page s).mem = s.mem :=
  (ctxContinue_goesOn f _ _).mem

theorem ctxInsertStep_mem : (ctxInsertStep f ctx s).mem = s.mem := by
  dsimp only [ctxInsertStep]
  split <;> rfl

/-- Only the report of a failed resolution writes memory. -/
theorem ctxStep_mem_or_writes (ph : CtxPhase) : (ctxStep f ph s).mem = s.mem ∨ Progress.Writes (.resolving ph) := by
  cases ph with
  | lookup => exact .inl (ctxLookupStep_mem f s)
  | makeRoom => exact .inl (ctxMakeRoomStep_mem f s)
  | walk => exact .inl (ctxWalkStep_mem f s)
  | ddEntry lvl page => exact .inl (ctxDdEntryStep_mem f s lvl page)
  | ddLeaf page => exact .inl (ctxDdLeafStep_mem f s page)
  | pdEntry ctx lvl page => exact .inl (ctxPdEntryStep_mem f ctx s lvl page)
  | pdLeaf ctx page => exact .inl (ctxPdLeafStep_mem f ctx s page)
  | insert ctx => exact .inl (ctxInsertStep_mem f ctx s)
  | report cause dtf => exact .inr (.reportContext cause dtf)

/-! ### Translation -/

theorem xlateSImplicitStep_mem (w g : WalkState) : (xlateSImplicitStep f ctx w g s).mem = s.mem := by
  dsimp only [xlateSImplicitStep]
  split
  · rfl
  · split <;> rfl

theorem xlateGWalkStep_mem (w : WalkState) : (xlateGWalkStep f ctx w s).mem = s.mem := by
  dsimp only [xlateGWalkStep]
  split
  · rfl
  · split
    · rfl
    · rfl
    · exact (xlateFinish_goesOn f ctx _ _ _ _ _).mem

theorem msiPteStep_mem (gpa ifn data : Word) (size : AccessSize) : (msiPteStep f ctx gpa ifn data size s).mem = s.mem := by
  dsimp only [msiPteStep]
  split <;> rfl

theorem mrifPendingReadStep_mem (pa id m1 : Word) : (mrifPendingReadStep f ctx pa id m1 s).mem = s.mem := by
  dsimp only [mrifPendingReadStep]
  split <;> rfl

theorem mrifEnableStep_mem (pa id m1 : Word) : (mrifEnableStep f ctx pa id m1 s).mem = s.mem := by
  dsimp only [mrifEnableStep]
  split
  · rfl
  · split <;> rfl

theorem xlateMakeRoomStep_mem (addr m : Word) (p : Perm) : (xlateMakeRoomStep f ctx addr m p s).mem = s.mem := by
  unfold xlateMakeRoomStep
  split
  · rfl
  · split <;> rfl

theorem xlateInsertStep_mem (addr m : Word) (p : Perm) : (xlateInsertStep f ctx addr m p s).mem = s.mem := by
  dsimp only [xlateInsertStep]
  split <;> rfl

variable {f ctx s} {t : State}

theorem xlateMiss_mem (h : xlateMiss f ctx s = .next t) : t.mem = s.mem := (xlateMiss_goesOn h).mem

theorem xlateLookupStep_mem (h : xlateLookupStep f ctx s = .next t) : t.mem = s.mem := by
  dsimp only [xlateLookupStep] at h
  split at h
  · cases h; rfl
  · split at h
    · split at h
      · cases h; rfl
      · exact xlateMiss_mem h
    · exact xlateMiss_mem h

theorem xlateSWalkStep_mem {w : WalkState} {pa : Word} (h : xlateSWalkStep f ctx w pa s = .next t) : t.mem = s.mem := by
  dsimp only [xlateSWalkStep] at h
  split at h
  · cases h; rfl
  · split at h
    · cases h; rfl
    · exact (xlateStage1Entry_goesOn h).mem
    · exact (xlateAfterStage1_goesOn h).mem

/-- Only the three writes of the MSI path and the report of a failed translation write memory. -/
theorem xlateStep_mem_or_writes {ph : XlatePhase} (h : xlateStep f ctx ph s = .next t) :
    t.mem = s.mem ∨ Progress.Writes (.translating ctx ph) := by
  cases ph with
  | lookup => exact .inl (xlateLookupStep_mem h)
  | sWalk w pa => exact .inl (xlateSWalkStep_mem h)
  | sImplicit w g => cases h; exact .inl (xlateSImplicitStep_mem f ctx s w g)
  | gWalk w => cases h; exact .inl (xlateGWalkStep_mem f ctx s w)
  | msiPte gpa ifn data size => cases h; exact .inl (msiPteStep_mem f ctx s gpa ifn data size)
  | msiForward target data size => exact .inr (.forward ctx target data size)
  | mrifPendingRead pa id m1 => cases h; exact .inl (mrifPendingReadStep_mem f ctx s pa id m1)
  | mrifPendingWrite pa id m1 pending => exact .inr (.pendingWrite ctx pa id m1 pending)
  | mrifEnable pa id m1 => cases h; exact .inl (mrifEnableStep_mem f ctx s pa id m1)
  | mrifNotice m1 => exact .inr (.notice ctx m1)
  | tlbRoom addr m perm => cases h; exact .inl (xlateMakeRoomStep_mem f ctx s addr m perm)
  | tlbInsert addr m perm => cases h; exact .inl (xlateInsertStep_mem f ctx s addr m perm)
  | report cause gpa2 => exact .inr (.reportTranslation ctx cause gpa2)

/-- A step of a request leaves memory as it was, unless the request stands at a phase that writes it. -/
theorem requestStep_mem_or_writes (h : requestStep f s = .next t) : t.mem = s.mem ∨ f.progress.Writes := by
  unfold requestStep at h
  split at h
  · next ph hf => cases h; exact hf ▸ ctxStep_mem_or_writes f s ph
  · next hf => exact hf ▸ xlateStep_mem_or_writes h
  · cases h; exact .inl rfl

end

/-! ## Which moves write memory -/

/-- A pending action of the background thread writes no memory. -/
theorem actionStep_mem {s t : State} (h : actionStep s = .next t) : t.mem = s.mem := by
  unfold actionStep at h
  split at h
  · cases h; rfl
  · split at h
    · next enable _ =>
      cases h
      obtain ⟨q, c, heq⟩ := cqControlStep_state enable s
      rw [heq]
    · split at h
      · cases h; rfl
      · split at h
        · cases h; rfl
        · split at h
          · cases h; rfl
          · split at h <;> cases h
            rfl

/-- The thread writes memory only inside the command loop. -/
theorem threadStep_mem_or_commands {s t : State} (h : threadStep s = .next t) : t.mem = s.mem ∨ s.thread = .commands := by
  unfold threadStep at h
  split at h
  · next hcommands => exact .inr hcommands
  · exact .inl (actionStep_mem h)

/-- Of software's actions only the store of another agent writes memory. -/
theorem softwareStep_mem_or_store (a : SwAction) (s : State) :
    (softwareStep a s).mem = s.mem ∨ ∃ addr size value, a = .store addr size value := by
  cases a with
  | store addr size value => exact .inr ⟨addr, size, value, rfl⟩
  | writeDdtp v => dsimp only [softwareStep, writeDdtp]; split <;> exact .inl rfl
  | configQueue q base size => dsimp only [softwareStep, configQueue]; split <;> cases q <;> exact .inl rfl
  | controlQueue q enable => cases q <;> exact .inl rfl
  | writeHead q v => cases q <;> exact .inl rfl
  | _ => exact .inl rfl

theorem advance_mem_or_writes {id : Nat} {s t : State} (h : advance id s = .next t) :
    t.mem = s.mem ∨ ∃ f, s.lookupInflight id = some f ∧ f.progress.Writes := by
  unfold advance at h
  split at h
  · next f hf => exact (requestStep_mem_or_writes h).imp_right fun hwrites => ⟨f, hf, hwrites⟩
  · cases h; exact .inl rfl

/-- `Progress.Writes` in the words of the statement. -/
theorem Progress.Writes.cases_progress {p : Progress} (h : p.Writes) :
    (∃ c d, p = .resolving (.report c d)) ∨
      ∃ ctx, (∃ c g, p = .translating ctx (.report c g)) ∨
        (∃ a d z, p = .translating ctx (.msiForward a d z)) ∨
        (∃ a i x y, p = .translating ctx (.mrifPendingWrite a i x y)) ∨
        (∃ x, p = .translating ctx (.mrifNotice x)) := by
  cases h with
  | reportContext cause dtf => exact .inl ⟨cause, dtf, rfl⟩
  | reportTranslation ctx cause gpa2 => exact .inr ⟨ctx, .inl ⟨cause, gpa2, rfl⟩⟩
  | forward ctx target data size => exact .inr ⟨ctx, .inr (.inl ⟨target, data, size, rfl⟩)⟩
  | pendingWrite ctx pa id m1 pending => exact .inr ⟨ctx, .inr (.inr (.inl ⟨pa, id, m1, pending, rfl⟩))⟩
  | notice ctx m1 => exact .inr ⟨ctx, .inr (.inr (.inr ⟨m1, rfl⟩))⟩

/-- Settles O39: of what a move can do (`MoveTurn`), the thread's turn, software's action and a request's step are looked
into; realize keeps memory, and so does the bookkeeping of early reads and arrivals. -/
theorem onlyMsiPathAndRecordsWriteMemory : Obligations.OnlyMsiPathAndRecordsWriteMemory := by
  intro m s t h hne
  cases perform_turn h with
  | thread => exact .inl ⟨rfl, (threadStep_mem_or_commands h).resolve_left hne⟩
  | software a =>
    obtain ⟨addr, size, value, rfl⟩ := (softwareStep_mem_or_store a s).resolve_left hne
    exact .inr (.inl ⟨addr, size, value, rfl⟩)
  | realize => exact absurd rfl hne
  | @request id _ _ _ _ =>
    obtain ⟨f, hf, hwrites⟩ := (advance_mem_or_writes h).resolve_left hne
    exact .inr (.inr ⟨id, f, rfl, hf, hwrites.cases_progress⟩)
  | bookkeeping => exact absurd rfl hne

end Sys2Proof.Machine

/-! Proofs for 30_encoding.md: the decoder and the encoder of commands (R160 to R169), and the mode geometry (R140) with
the range check and the entry address that 41_translation.md R272 and R273 build on it. -/

namespace Sys2Proof.Machine

/-! ## Fields of a dword

Every encoded dword is a chain of fields appended to each other, the highest first. `FieldAt` says where in a dword a
field stands; `FieldAt.append_iff` takes a chain apart, so that both the decoder (which reads the fields of an encoded
dword) and the reserved masks (which keep or clear each field of a dword) are settled field by field. -/

/-- The bits of `e` from bit `s` up are `x`. -/
def FieldAt {n : Nat} (e : Word) (s : Nat) (x : BitVec n) : Prop := x = e.extractLsb' s n

namespace FieldAt

variable {e d keep : Word} {s k n : Nat}

theorem extract : FieldAt e s (e.extractLsb' s n) := rfl

/-- Fields that stand next to each other are one field. -/
theorem append_iff {hi : BitVec k} {lo : BitVec n} : FieldAt e s (hi ++ lo) ↔ FieldAt e (s + n) hi ∧ FieldAt e s lo := by
  have hcut : e.extractLsb' s (k + n) = e.extractLsb' (s + n) k ++ e.extractLsb' s n :=
    (BitVec.extractLsb'_append_extractLsb'_eq_extractLsb' rfl).symm
  rw [FieldAt, FieldAt, FieldAt, hcut]
  refine ⟨fun h => ⟨?_, ?_⟩, fun ⟨hhi, hlo⟩ => by rw [hhi, hlo]⟩
  · simpa only [BitVec.extractLsb'_append_eq_left] using congrArg (BitVec.extractLsb' n k) h
  · simpa only [BitVec.extractLsb'_append_eq_right] using congrArg (BitVec.extractLsb' 0 n) h

/-- The field of all 64 bits is the dword. -/
theorem eq_dword {x : Word} (h : FieldAt e 0 x) : x = e := h.trans BitVec.extractLsb'_eq_self

theorem dword : FieldAt e 0 e := BitVec.extractLsb'_eq_self.symm

/-- A field that a mask keeps whole. -/
theorem kept (h : keep.extractLsb' s n = BitVec.allOnes n := by decide) : FieldAt (d &&& keep) s (d.extractLsb' s n) := by
  rw [FieldAt, BitVec.extractLsb'_and, h, BitVec.and_allOnes]

/-- A field that a mask clears whole. -/
theorem cleared (h : keep.extractLsb' s n = 0#n := by decide) : FieldAt (d &&& keep) s (0#n) := by
  rw [FieldAt, BitVec.extractLsb'_and, h, BitVec.and_zero]

/-- A field of one bit is a flag. -/
theorem ofBool_iff {b : Bool} : FieldAt e s (BitVec.ofBool b) ↔ flag e s = b := by
  have hbit : e.extractLsb' s 1 = BitVec.ofBool (flag e s) := by
    rw [← BitVec.setWidth_eq (e.extractLsb' s 1), BitVec.setWidth_one, BitVec.getLsbD_extractLsb']
    rfl
  rw [FieldAt, hbit, BitVec.ofBool_eq_iff_eq, eq_comm]

/-- A flag that a mask keeps. -/
theorem keptFlag (h : keep.getLsbD s = true := by decide) : FieldAt (d &&& keep) s (BitVec.ofBool (flag d s)) := by
  rw [ofBool_iff, flag, BitVec.getLsbD_and, h, Bool.and_true]
  rfl

end FieldAt

/-! ## Bytes of a command (R82, R83, R168) -/

/-- The eight bytes of a dword are that dword. -/
theorem dwordOfBytes_extract (d : Word) :
    dwordOfBytes (d.extractLsb' 0 8) (d.extractLsb' 8 8) (d.extractLsb' 16 8) (d.extractLsb' 24 8) (d.extractLsb' 32 8)
      (d.extractLsb' 40 8) (d.extractLsb' 48 8) (d.extractLsb' 56 8) = d := by
  apply FieldAt.eq_dword
  simp only [dwordOfBytes, FieldAt.append_iff, and_assoc]
  exact ⟨.extract, .extract, .extract, .extract, .extract, .extract, .extract, .extract⟩

/-- The decoder on the bytes of two dwords is the decoder on the dwords. -/
theorem decodeBytes_leDwords (d0 d1 : Word) : decodeBytes (leDwords [d0, d1]) = decode d0 d1 :=
  congrArg₂ decode (dwordOfBytes_extract d0) (dwordOfBytes_extract d1)

/-! ## What the decoder answers (R165) -/

/-- The command of the kind of `i` whose operands are the fields of two dwords. -/
def readOperands (d0 d1 : Word) : Instr → Instr
  | .iotinvalVma _ _ _ _ _ _ => decodeIotinval .iotinvalVma d0 d1
  | .iotinvalGvma _ _ _ _ _ _ => decodeIotinval .iotinvalGvma d0 d1
  | .iofenceC _ _ _ _ _ _ => decodeIofence d0 d1
  | .iodirInvalDdt _ _ _ => decodeIodir .iodirInvalDdt d0
  | .iodirInvalPdt _ _ _ => decodeIodir .iodirInvalPdt d0
  | .atsInval _ _ _ _ _ _ => decodeAts .atsInval d0 d1
  | .atsPrgr _ _ _ _ _ _ => decodeAts .atsPrgr d0 d1

/-- The opcode of a command selects the format its operands are read in. -/
theorem decode_of_opcode {d0 : Word} {i : Instr} (h : func3opcode d0 = opcodeOf i) (d1 : Word) :
    decode d0 d1 = .instr (readOperands d0 d1 i) := by
  cases i <;> simp [decode, readOperands, h, opcodeOf]

/-- The seven opcodes of R165. -/
def commandOpcodes : List (BitVec 10) := [0x001#10, 0x081#10, 0x002#10, 0x003#10, 0x083#10, 0x004#10, 0x084#10]

theorem mem_commandOpcodes_iff {op : BitVec 10} : op ∈ commandOpcodes ↔ ∃ i, op = opcodeOf i := by
  constructor
  · intro h
    simp only [commandOpcodes, List.mem_cons, List.not_mem_nil, or_false] at h
    obtain rfl | rfl | rfl | rfl | rfl | rfl | rfl := h
    · exact ⟨.iotinvalVma false 0 false false 0 0, rfl⟩
    · exact ⟨.iotinvalGvma false 0 false false 0 0, rfl⟩
    · exact ⟨.iofenceC false false false false 0 0, rfl⟩
    · exact ⟨.iodirInvalDdt 0 false 0, rfl⟩
    · exact ⟨.iodirInvalPdt 0 false 0, rfl⟩
    · exact ⟨.atsInval 0 false false 0 0 0, rfl⟩
    · exact ⟨.atsPrgr 0 false false 0 0 0, rfl⟩
  · rintro ⟨i, rfl⟩
    cases i <;> simp [opcodeOf, commandOpcodes]

/-- Any other opcode is rejected. -/
theorem decode_of_unknown {d0 : Word} (h : func3opcode d0 ∉ commandOpcodes) (d1 : Word) :
    decode d0 d1 = .reject (.unknownCommand (func3opcode d0)) := by
  simp only [commandOpcodes, List.mem_cons, List.not_mem_nil, or_false, not_or] at h
  simp [decode, h]

/-- Two dwords are rejected exactly if they hold the opcode of no command (R166). -/
theorem decode_eq_unknown_iff {d0 d1 : Word} :
    decode d0 d1 = .reject (.unknownCommand (func3opcode d0)) ↔ func3opcode d0 ∉ commandOpcodes := by
  refine ⟨fun h hknown => ?_, fun h => decode_of_unknown h d1⟩
  obtain ⟨i, hi⟩ := mem_commandOpcodes_iff.1 hknown
  rw [decode_of_opcode hi] at h
  cases h

/-- Two dwords hold a command exactly if they hold its opcode and its operands. -/
theorem decode_eq_instr_iff {d0 d1 : Word} {i : Instr} :
    decode d0 d1 = .instr i ↔ func3opcode d0 = opcodeOf i ∧ readOperands d0 d1 i = i := by
  constructor
  · intro h
    have hop : func3opcode d0 = opcodeOf i := by
      by_cases hknown : func3opcode d0 ∈ commandOpcodes
      · obtain ⟨j, hj⟩ := mem_commandOpcodes_iff.1 hknown
        obtain rfl : readOperands d0 d1 j = i := Decoded.instr.inj ((decode_of_opcode hj d1).symm.trans h)
        rw [hj]
        cases j <;> rfl
      · rw [decode_of_unknown hknown] at h
        cases h
    exact ⟨hop, Decoded.instr.inj ((decode_of_opcode hop d1).symm.trans h)⟩
  · rintro ⟨hop, hi⟩
    rw [decode_of_opcode hop, hi]

/-! ## Decoding what was encoded (R161 to R164) -/

theorem func3opcode_encode (i : Instr) : func3opcode (encode i).1 = opcodeOf i := by
  cases i with
  | iotinvalVma => exact Laws.OpcodeBits.iotinvalVma ..
  | iotinvalGvma => exact Laws.OpcodeBits.iotinvalGvma ..
  | iofenceC => exact Laws.OpcodeBits.iofenceC ..
  | iodirInvalDdt => exact Laws.OpcodeBits.iodirInvalDdt ..
  | iodirInvalPdt => exact Laws.OpcodeBits.iodirInvalPdt ..
  | atsInval => exact Laws.OpcodeBits.atsInval ..
  | atsPrgr => exact Laws.OpcodeBits.atsPrgr ..

section

variable {d0 d1 : Word} {op : BitVec 10}

theorem decodeIotinval_of_fields {mk : Bool → BitVec 20 → Bool → Bool → BitVec 16 → BitVec 52 → Instr}
    {av pscv gv : Bool} {pscid : BitVec 20} {gscid : BitVec 16} {addr : BitVec 52}
    (h0 : FieldAt d0 0 (encodeIotinval0 op av pscid pscv gv gscid)) (h1 : FieldAt d1 0 (encodeIotinval1 addr)) :
    decodeIotinval mk d0 d1 = mk av pscid pscv gv gscid addr := by
  simp only [encodeIotinval0, encodeIotinval1, FieldAt.append_iff, FieldAt.ofBool_iff, and_assoc] at h0 h1
  obtain ⟨-, rfl, -, rfl, rfl, rfl, -, rfl, -⟩ := h0
  obtain ⟨-, rfl, -⟩ := h1
  rfl

theorem decodeIofence_of_fields {av wsi pr pw : Bool} {data : BitVec 32} {addr : BitVec 62}
    (h0 : FieldAt d0 0 (encodeIofence0 op av wsi pr pw data)) (h1 : FieldAt d1 0 (encodeIofence1 addr)) :
    decodeIofence d0 d1 = .iofenceC av wsi pr pw data addr := by
  simp only [encodeIofence0, encodeIofence1, FieldAt.append_iff, FieldAt.ofBool_iff, and_assoc] at h0 h1
  obtain ⟨rfl, -, rfl, rfl, rfl, rfl, -⟩ := h0
  obtain ⟨-, rfl⟩ := h1
  rfl

theorem decodeIodir_of_fields {mk : BitVec 20 → Bool → BitVec 24 → Instr} {pid : BitVec 20} {dv : Bool} {did : BitVec 24}
    (h0 : FieldAt d0 0 (encodeIodir0 op pid dv did)) : decodeIodir mk d0 = mk pid dv did := by
  simp only [encodeIodir0, FieldAt.append_iff, FieldAt.ofBool_iff, and_assoc] at h0
  obtain ⟨rfl, -, rfl, -, rfl, -, -⟩ := h0
  rfl

theorem decodeAts_of_fields {mk : BitVec 20 → Bool → Bool → BitVec 16 → BitVec 8 → Word → Instr} {pid : BitVec 20}
    {pv dsv : Bool} {rid : BitVec 16} {dseg : BitVec 8} (h0 : FieldAt d0 0 (encodeAts0 op pid pv dsv rid dseg)) :
    decodeAts mk d0 d1 = mk pid pv dsv rid dseg d1 := by
  simp only [encodeAts0, FieldAt.append_iff, FieldAt.ofBool_iff, and_assoc] at h0
  obtain ⟨rfl, rfl, -, rfl, rfl, rfl, -, -⟩ := h0
  rfl

end

theorem readOperands_encode (i : Instr) : readOperands (encode i).1 (encode i).2 i = i := by
  cases i with
  | iotinvalVma => exact decodeIotinval_of_fields .dword .dword
  | iotinvalGvma => exact decodeIotinval_of_fields .dword .dword
  | iofenceC => exact decodeIofence_of_fields .dword .dword
  | iodirInvalDdt => exact decodeIodir_of_fields .dword
  | iodirInvalPdt => exact decodeIodir_of_fields .dword
  | atsInval => exact decodeAts_of_fields .dword
  | atsPrgr => exact decodeAts_of_fields .dword

theorem decode_encode (i : Instr) : decode (encode i).1 (encode i).2 = .instr i :=
  decode_eq_instr_iff.2 ⟨func3opcode_encode i, readOperands_encode i⟩

/-- Settles O12: the bytes give back the two dwords, and these hold the command's opcode and its operands. -/
theorem decodeEncodeAgree : Obligations.DecodeEncodeAgree := by
  intro i
  rw [decodeBytes_leDwords, decode_encode]

/-! ## Encoding what was decoded: the reserved bits are 0 (R167) -/

theorem encodeIotinval0_read {op : BitVec 10} {d : Word} (h : func3opcode d = op) :
    encodeIotinval0 op (flag d 10) (d.extractLsb' 12 20) (flag d 32) (flag d 33) (d.extractLsb' 44 16) =
      d &&& ~~~ 0xF0000FFC00000800 := by
  subst h
  apply FieldAt.eq_dword
  simp only [encodeIotinval0, FieldAt.append_iff, and_assoc]
  exact ⟨.cleared, .kept, .cleared, .keptFlag, .keptFlag, .kept, .cleared, .keptFlag, .kept⟩

theorem encodeIotinval1_read (d : Word) : encodeIotinval1 (d.extractLsb' 10 52) = d &&& ~~~ 0xC0000000000003FF := by
  apply FieldAt.eq_dword
  simp only [encodeIotinval1, FieldAt.append_iff, and_assoc]
  exact ⟨.cleared, .kept, .cleared⟩

theorem encodeIofence0_read {op : BitVec 10} {d : Word} (h : func3opcode d = op) :
    encodeIofence0 op (flag d 10) (flag d 11) (flag d 12) (flag d 13) (d.extractLsb' 32 32) =
      d &&& ~~~ 0x00000000FFFFC000 := by
  subst h
  apply FieldAt.eq_dword
  simp only [encodeIofence0, FieldAt.append_iff, and_assoc]
  exact ⟨.kept, .cleared, .keptFlag, .keptFlag, .keptFlag, .keptFlag, .kept⟩

theorem encodeIofence1_read (d : Word) : encodeIofence1 (d.extractLsb' 0 62) = d &&& ~~~ 0xC000000000000000 := by
  apply FieldAt.eq_dword
  simp only [encodeIofence1, FieldAt.append_iff]
  exact ⟨.cleared, .kept⟩

theorem encodeIodir0_read {op : BitVec 10} {d : Word} (h : func3opcode d = op) :
    encodeIodir0 op (d.extractLsb' 12 20) (flag d 33) (d.extractLsb' 40 24) = d &&& ~~~ 0x000000FD00000C00 := by
  subst h
  apply FieldAt.eq_dword
  simp only [encodeIodir0, FieldAt.append_iff, and_assoc]
  exact ⟨.kept, .cleared, .keptFlag, .cleared, .kept, .cleared, .kept⟩

theorem encodeAts0_read {op : BitVec 10} {d : Word} (h : func3opcode d = op) :
    encodeAts0 op (d.extractLsb' 12 20) (flag d 32) (flag d 33) (d.extractLsb' 40 16) (d.extractLsb' 56 8) =
      d &&& ~~~ 0x000000FC00000C00 := by
  subst h
  apply FieldAt.eq_dword
  simp only [encodeAts0, FieldAt.append_iff, and_assoc]
  exact ⟨.kept, .kept, .cleared, .keptFlag, .keptFlag, .kept, .cleared, .kept⟩

/-- The command that two dwords hold encodes to the dwords without their reserved bits. -/
theorem encode_readOperands {d0 : Word} {i : Instr} (h : func3opcode d0 = opcodeOf i) (d1 : Word) :
    encode (readOperands d0 d1 i) = (d0 &&& ~~~ (reservedBits i).1, d1 &&& ~~~ (reservedBits i).2) := by
  have hnone : d1 &&& ~~~ 0xFFFFFFFFFFFFFFFF = 0 := BitVec.and_zero
  have hall : d1 &&& ~~~ 0 = d1 := BitVec.and_allOnes
  cases i with
  | iotinvalVma => exact Prod.ext (encodeIotinval0_read h) (encodeIotinval1_read d1)
  | iotinvalGvma => exact Prod.ext (encodeIotinval0_read h) (encodeIotinval1_read d1)
  | iofenceC => exact Prod.ext (encodeIofence0_read h) (encodeIofence1_read d1)
  | iodirInvalDdt => exact Prod.ext (encodeIodir0_read h) hnone.symm
  | iodirInvalPdt => exact Prod.ext (encodeIodir0_read h) hnone.symm
  | atsInval => exact Prod.ext (encodeAts0_read h) hall.symm
  | atsPrgr => exact Prod.ext (encodeAts0_read h) hall.symm

/-- Settles O13: the dwords without their reserved bits are the command's encoding, which decodes to the command. -/
theorem reservedBitsIgnored : Obligations.ReservedBitsIgnored := by
  intro d0 d1 i h
  obtain ⟨hop, hi⟩ := decode_eq_instr_iff.1 h
  have hencode := encode_readOperands hop d1
  rw [hi] at hencode
  exact ⟨hencode, by simpa only [hencode] using decode_encode i⟩

/-- Settles O14: the examples by evaluation, the rejected words by `decode_eq_unknown_iff`. -/
theorem tableWordsDecode : Obligations.TableWordsDecode :=
  ⟨by decide, by decide, by decide, by decide, by decide, by decide, by decide, fun _ _ => decode_eq_unknown_iff⟩

/-! ## The entry address of a level (41_translation.md R273) -/

/-- The low `n` bits of a word are its remainder. -/
theorem and_lowMask (x : Word) (n : Nat) : x &&& lowMask n = BitVec.ofNat 64 (x.toNat % 2 ^ n) := by
  rw [← Nat.and_two_pow_sub_one_eq_mod, BitVec.ofNat_and, BitVec.ofNat_toNat, BitVec.setWidth_eq, lowMask]

theorem entryAddr_eq (w : WalkState) :
    w.entryAddr = w.base + BitVec.ofNat 64 (w.addr.toNat / 2 ^ w.skip % 2 ^ w.indexWidth * w.geom.pteBytes) := by
  rw [WalkState.entryAddr, and_lowMask, BitVec.toNat_ushiftRight, Nat.shiftRight_eq_div_pow, BitVec.ofNat_mul]

/-- A page base is the page number above twelve zero bits. -/
theorem pageBase_eq_append (ppn : BitVec 44) : pageBase ppn = 0#8 ++ ppn ++ 0#12 := by
  have happend : (0#8 ++ ppn ++ 0#12).toNat = ppn.toNat <<< 12 := by
    rw [BitVec.toNat_append, BitVec.toNat_append]
    simp
  have hbase : (pageBase ppn).toNat = ppn.toNat <<< 12 := by
    simp only [pageBase, BitVec.toNat_shiftLeft, BitVec.toNat_setWidth, Nat.shiftLeft_eq]
    omega
  exact BitVec.eq_of_toNat_eq (hbase.trans happend.symm)

/-! ## The range check (41_translation.md R272) -/

/-- No bit is set from position `w` up exactly if the word is the zero extension of its low bits. -/
theorem ushiftRight_eq_zero_iff_zeroExtend (a : Word) (w : Nat) : a >>> w = 0 ↔ (a.setWidth w).setWidth 64 = a := by
  have hmod : a.toNat % 2 ^ w < 2 ^ 64 := (Nat.mod_le ..).trans_lt a.isLt
  have hlt : (a >>> w).toNat = 0 ↔ a.toNat < 2 ^ w := by
    rw [BitVec.toNat_ushiftRight, Nat.shiftRight_eq_div_pow, Nat.div_eq_zero_iff]
    simp
  rw [BitVec.toNat_eq, BitVec.toNat_eq, BitVec.toNat_setWidth, BitVec.toNat_setWidth, Nat.mod_eq_of_lt hmod]
  exact hlt.trans (Nat.mod_eq_iff_lt (by positivity)).symm

theorem getLsbD_lowMask (n : Nat) {j : Nat} (hj : j < 64) : (lowMask n).getLsbD j = decide (j < n) := by
  rw [lowMask, BitVec.getLsbD_ofNat, Nat.testBit_two_pow_sub_one, decide_eq_true hj, Bool.true_and]

/-- The bits of a word from position `n` up are all 0, or all 1, exactly if the word shifted down is. -/
theorem ushiftRight_eq_fill_iff (a : Word) (n : Nat) (b : Bool) :
    a >>> n = (if b then lowMask (64 - n) else 0) ↔ ∀ i, n ≤ i → i < 64 → a.getLsbD i = b := by
  have hfill (j : Nat) (hj : j < 64) : (if b then lowMask (64 - n) else 0).getLsbD j = (decide (n + j < 64) && b) := by
    cases b with
    | false => simp
    | true => simp [getLsbD_lowMask _ hj, Nat.lt_sub_iff_add_lt']
  constructor
  · intro h i hn hi
    have hbit : (a >>> n).getLsbD (i - n) = _ := h ▸ hfill (i - n) (by omega)
    simpa only [BitVec.getLsbD_ushiftRight, Nat.add_sub_cancel' hn, decide_eq_true hi, Bool.true_and] using hbit
  · intro h
    apply BitVec.eq_of_getLsbD_eq
    intro j hj
    rw [hfill j hj, BitVec.getLsbD_ushiftRight]
    by_cases hin : n + j < 64
    · rw [h (n + j) (Nat.le_add_right ..) hin, decide_eq_true hin, Bool.true_and]
    · rw [BitVec.getLsbD_of_ge _ _ (Nat.le_of_not_lt hin), decide_eq_false hin, Bool.false_and]

/-- A word is the sign extension of its low bits exactly if the bits from the sign up are all alike. -/
theorem signExtend_setWidth_eq_iff (a : Word) {w : Nat} (hw : 0 < w) :
    (a.setWidth w).signExtend 64 = a ↔ ∀ i, w - 1 ≤ i → i < 64 → a.getLsbD i = a.getLsbD (w - 1) := by
  have hbit (i : Nat) (hi : i < 64) : ((a.setWidth w).signExtend 64).getLsbD i = a.getLsbD (if i < w then i else w - 1) := by
    rw [BitVec.getLsbD_signExtend, BitVec.msb_setWidth]
    split
    · next hiw => rw [BitVec.getLsbD_setWidth, decide_eq_true hi, decide_eq_true hiw, Bool.true_and, Bool.true_and]
    · rw [decide_eq_true hi, decide_eq_true hw, Bool.true_and, Bool.true_and]
  constructor
  · intro h i hlow hi
    by_cases hiw : i < w
    · rw [show i = w - 1 by omega]
    · calc a.getLsbD i = ((a.setWidth w).signExtend 64).getLsbD i := by rw [h]
        _ = a.getLsbD (w - 1) := by rw [hbit i hi, if_neg hiw]
  · intro h
    apply BitVec.eq_of_getLsbD_eq
    intro i hi
    rw [hbit i hi]
    split
    · rfl
    · exact (h i (by omega) hi).symm

/-- The range check of a stage-1 mode wider than 32 bits asks for a sign extension. -/
theorem rangeOk_s_of_wide (a : Word) {w : Nat} (hw : 32 < w) (hw' : w ≤ 64) :
    rangeOk .s w a = decide ((a.setWidth w).signExtend 64 = a) := by
  have hzeros := ushiftRight_eq_fill_iff a (w - 1) false
  have hones := ushiftRight_eq_fill_iff a (w - 1) true
  rw [show 64 - (w - 1) = 65 - w by omega] at hones
  have halike : (a >>> (w - 1) = 0 ∨ a >>> (w - 1) = lowMask (65 - w)) ↔ (a.setWidth w).signExtend 64 = a := by
    rw [signExtend_setWidth_eq_iff a (by omega)]
    constructor
    · rintro (h | h) i hlow hi
      · rw [hzeros.1 h i hlow hi, hzeros.1 h (w - 1) (Nat.le_refl _) (by omega)]
      · rw [hones.1 h i hlow hi, hones.1 h (w - 1) (Nat.le_refl _) (by omega)]
    · intro h
      cases hsign : a.getLsbD (w - 1) with
      | false => exact .inl (hzeros.2 fun i hlow hi => (h i hlow hi).trans hsign)
      | true => exact .inr (hones.2 fun i hlow hi => (h i hlow hi).trans hsign)
  rw [rangeOk, if_pos ⟨rfl, hw⟩, ← Bool.decide_or]
  exact decide_eq_decide.2 halike

/-- Every other range check asks for a zero extension. -/
theorem rangeOk_of_zero_extended {stage : Stage} (a : Word) {w : Nat} (h : stage = .g ∨ w ≤ 32) :
    rangeOk stage w a = decide ((a.setWidth w).setWidth 64 = a) := by
  have hnot : ¬ (stage = .s ∧ 32 < w) := by
    rintro ⟨rfl, hw⟩
    exact h.elim nofun (by omega)
  rw [rangeOk, if_neg hnot]
  exact decide_eq_decide.2 (ushiftRight_eq_zero_iff_zeroExtend a w)

/-! ## The geometry of a mode (R128, R130, R140) -/

theorem map_find?_cons {α β : Type} (p : α → Bool) (f : α → β) (x : α) (xs : List α) :
    ((x :: xs).find? p).map f = if p x then some (f x) else (xs.find? p).map f := by
  rw [List.find?_cons]
  cases p x <;> rfl

/-- Both geometry functions choose by the family, then by the mode and its flag in `CAP`: the first row of a table. -/
theorem modeChoice_eq_row (family c32 c39 c48 c57 : Bool) (mode : BitVec 4) (g32 g39 g48 g57 : Geometry) :
    (if family then if mode = 8 ∧ c32 then some g32 else none
      else if mode = 8 ∧ c39 then some g39
      else if mode = 9 ∧ c48 then some g48
      else if mode = 10 ∧ c57 then some g57
      else none) =
    ([(true, 8, c32, g32), (false, 8, c39, g39), (false, 9, c48, g48), (false, 10, c57, g57)].find? fun r =>
      r.1 == family && r.2.1 == mode && r.2.2.1).map fun r => r.2.2.2 := by
  cases family with
  | false => simp [map_find?_cons, eq_comm (a := mode)]
  | true => simp [map_find?_cons, eq_comm (a := mode)]

/-- Settles O35: the tables by `modeChoice_eq_row`, the rest by the lemmas about the range check and the entry address. -/
theorem rangeCheckIsExtension : Obligations.RangeCheckIsExtension := by
  refine ⟨fun cap sxl mode => modeChoice_eq_row sxl cap.sv32 cap.sv39 cap.sv48 cap.sv57 mode .., fun cap gxl mode =>
    modeChoice_eq_row gxl cap.sv32x4 cap.sv39x4 cap.sv48x4 cap.sv57x4 mode .., fun stage geom root a m p => ?start,
    fun a => ⟨fun w hw => ?wide, ?sv32, fun w _ => ?stage2⟩, entryAddr_eq⟩
  case start => rw [startWalk, pageBase_eq_append]
  case wide =>
    obtain ⟨hwide, hle⟩ : 32 < w ∧ w ≤ 64 := (by decide : ∀ v ∈ [39, 48, 57], 32 < v ∧ v ≤ 64) w hw
    exact rangeOk_s_of_wide a hwide hle
  case sv32 => exact rangeOk_of_zero_extended a (.inr (Nat.le_refl 32))
  case stage2 => exact rangeOk_of_zero_extended a (.inl rfl)

end Sys2Proof.Machine

/-! Proofs for 40_context.md: the context-cache lookup and its miss, the insertion, the directory walks with the checks of
their entries and contexts, and the process selection; and the bound on the steps of every request (R491). -/

namespace Sys2Proof.Machine

/-! ## A request that is resolving its context -/

section
variable {f : InFlight} {ph : CtxPhase}

theorem requestStep_resolving (hf : f.progress = .resolving ph) (s : State) : requestStep f s = .next (ctxStep f ph s) := by
  rw [requestStep, hf]

/-- The events of a request without a context carry the scope tags 0 (R441; log entry 19). -/
theorem State.event_resolving (hf : f.progress = .resolving ph) (s : State) (e : PerfEvent) :
    s.event f e = s.emit (.event e f.req.devid f.req.pid 0 0) := by
  rw [State.event, InFlight.tags, hf]

end

/-! ## The context cache (R201, R202) -/

theorem CtxEntry.hasKey_iff {devid : BitVec 24} {pid : BitVec 20} {e : CtxEntry} :
    e.hasKey devid pid = true ↔ e.ctx.devid = devid ∧ e.ctx.pid = pid := by
  rw [CtxEntry.hasKey, Bool.and_eq_true, decide_eq_true_iff, decide_eq_true_iff]

theorem State.ctxEntry_eq_find? (s : State) (devid : BitVec 24) (pid : BitVec 20) :
    s.ctxEntry devid pid = s.ctxCache.current.entries.find? fun e => decide (e.ctx.devid = devid ∧ e.ctx.pid = pid) :=
  congrArg (s.ctxCache.current.entries.find? ·)
    (funext fun _ => Bool.eq_iff_iff.2 (CtxEntry.hasKey_iff.trans decide_eq_true_iff.symm))

theorem State.ctxEntry_insertCtx_self (s : State) (ctx : Ctx) :
    (s.insertCtx ctx).ctxEntry ctx.devid ctx.pid = some { ctx, valid := true } :=
  find?_upsert_self (same := CtxEntry.hasKey ctx.devid ctx.pid) (CtxEntry.hasKey_iff.2 ⟨rfl, rfl⟩) _

theorem State.ctxEntry_insertCtx_other (s : State) {ctx : Ctx} {devid : BitVec 24} {pid : BitVec 20}
    (h : ¬ (devid = ctx.devid ∧ pid = ctx.pid)) : (s.insertCtx ctx).ctxEntry devid pid = s.ctxEntry devid pid := by
  have hother (x : CtxEntry) (hd : x.ctx.devid = ctx.devid) (hp : x.ctx.pid = ctx.pid) : x.hasKey devid pid = false :=
    Bool.eq_false_iff.2 fun hx => h (by rw [← hd, ← hp]; exact (CtxEntry.hasKey_iff.1 hx).imp Eq.symm Eq.symm)
  refine find?_upsert_other (hother _ rfl rfl) (fun x hx => ?_) _
  obtain ⟨hd, hp⟩ := CtxEntry.hasKey_iff.1 hx
  exact hother x hd hp

/-- A request in flight that goes on is the same request at its new place. -/
theorem State.lookupInflight_goOn_self {s : State} {f : InFlight} (h : (s.lookupInflight f.id).isSome) (p : Progress) :
    (s.goOn f p).lookupInflight f.id = some { f with progress := p, latches := [] } := by
  obtain ⟨g, hg⟩ := Option.isSome_iff_exists.1 h
  rw [State.lookupInflight_goOn, if_pos rfl, hg, Option.map_some]

theorem State.progressOf_goOn_self {s : State} {f : InFlight} (h : (s.lookupInflight f.id).isSome) (p : Progress) :
    (s.goOn f p).progressOf f.id = some p := by
  rw [State.progressOf, State.lookupInflight_goOn_self h, Option.map_some]

/-- Settles O24: the event, then the two ends of the lookup by exact key. -/
theorem contextLookup : Obligations.ContextLookup := by
  intro f s hf
  rw [requestStep_resolving hf, ctxStep, ← State.ctxEntry_eq_find?]
  dsimp only [ctxLookupStep]
  rw [State.event_resolving hf]
  cases s.ctxEntry f.req.devid f.req.pid with
  | none => rfl
  | some e => dsimp only; split <;> rfl

/-! ### The miss (R202 to R207) -/

/-- The capacity replacement: a new empty generation, which the request pins. -/
theorem ctxMakeRoomStep_of_full {f : InFlight} {s : State} (h : s.params.ctxCacheCapacity ≤ s.ctxCache.current.entries.length) :
    ctxMakeRoomStep f s =
      (({ s with ctxCache := s.ctxCache.replace } : State).goOn { f with ctxGen := some (s.ctxCache.current.number + 1) }
        (.resolving .walk)).releaseGenerations := if_pos h

theorem ctxMakeRoomStep_of_room {f : InFlight} {s : State} (h : ¬ s.params.ctxCacheCapacity ≤ s.ctxCache.current.entries.length) :
    ctxMakeRoomStep f s = s.goOn f (.resolving .walk) := if_neg h

/-- The start of the walk of a tree. -/
theorem ctxWalkStep_of_tree (f : InFlight) {s : State} (h : 0 < s.ddtp.mode.levels) :
    ctxWalkStep f s = s.goOn f (.resolving
      (if 2 ^ devidWidth s.params s.ddtp.mode.levels ≤ f.req.devid.toNat then .report .transactionTypeDisallowed false
       else ddPhase (s.ddtp.mode.levels - 1) (0#8 ++ s.ddtp.ppn ++ 0#12))) := by
  rw [ctxWalkStep, pageBase_eq_append]
  split
  · next hoff => rw [hoff] at h; exact absurd h (by decide)
  · next hbare => rw [hbare] at h; exact absurd h (by decide)
  · split <;> rfl

/-- No device id is too wide for three levels (R207). -/
theorem devid_lt_three_levels (p : Params) (devid : BitVec 24) : ¬ 2 ^ devidWidth p DdtpMode.lvl3.levels ≤ devid.toNat :=
  Nat.not_le.2 devid.isLt

/-- Settles O25: the full and the not-full generation, then the five modes of `ddtp`. -/
theorem contextMiss : Obligations.ContextMiss := by
  intro f s hin
  have hsome : (s.lookupInflight f.id).isSome := by simp [hin]
  refine ⟨fun hf => ?room, fun hf => ?walk⟩
  case room =>
    rw [requestStep_resolving hf, ctxStep]
    by_cases hfull : s.params.ctxCacheCapacity ≤ s.ctxCache.current.entries.length
    · rw [ctxMakeRoomStep_of_full hfull]
      exact ⟨_, _, rfl, State.lookupInflight_goOn_self (s := { s with ctxCache := _ })
        (f := { f with ctxGen := some (s.ctxCache.current.number + 1) }) hsome _, rfl, rfl, rfl, rfl, rfl, rfl,
        fun _ => ⟨rfl, rfl⟩, fun h => absurd hfull h⟩
    · rw [ctxMakeRoomStep_of_room hfull]
      exact ⟨_, _, rfl, State.lookupInflight_goOn_self hsome _, rfl, rfl, rfl, rfl, rfl, rfl,
        fun h => absurd h hfull, fun _ => ⟨rfl, rfl⟩⟩
  case walk =>
    rw [requestStep_resolving hf, ctxStep]
    have htree := ctxWalkStep_of_tree f (s := s)
    cases hmode : s.ddtp.mode with
    | off => rw [ctxWalkStep, hmode]; rfl
    | bare => rw [ctxWalkStep, hmode]; rfl
    | lvl1 => rw [hmode] at htree; exact congrArg _ (htree (by decide))
    | lvl2 => rw [hmode] at htree; exact congrArg _ (htree (by decide))
    | lvl3 =>
      rw [hmode] at htree
      rw [htree (by decide), if_neg (devid_lt_three_levels s.params f.req.devid)]
      rfl

/-! ### The insertion (R202) -/

theorem ctxInsertStep_of_current {f : InFlight} {ctx : Ctx} {s : State} (h : f.ctxGen = some s.ctxCache.current.number) :
    ctxInsertStep f ctx s = (s.insertCtx ctx).goOn f (.translating ctx .lookup) := by
  rw [ctxInsertStep, if_pos h]

theorem ctxInsertStep_of_replaced {f : InFlight} {ctx : Ctx} {s : State} (h : f.ctxGen ≠ some s.ctxCache.current.number) :
    ctxInsertStep f ctx s = s.goOn f (.translating ctx .lookup) := by
  rw [ctxInsertStep, if_neg h]

/-- Settles O31: an upsert by key where the pinned generation is still current, and no change where it is not. -/
theorem contextInsertion : Obligations.ContextInsertion := by
  intro f ctx s hf hin
  have hsome : (s.lookupInflight f.id).isSome := by simp [hin]
  rw [requestStep_resolving hf, ctxStep]
  by_cases hgen : f.ctxGen = some s.ctxCache.current.number
  · rw [ctxInsertStep_of_current hgen]
    exact ⟨_, rfl, rfl, rfl, rfl, State.progressOf_goOn_self (s := s.insertCtx ctx) hsome _,
      fun _ => ⟨rfl, rfl, s.ctxEntry_insertCtx_self ctx, fun _ _ h => s.ctxEntry_insertCtx_other h⟩,
      fun h => absurd hgen h⟩
  · rw [ctxInsertStep_of_replaced hgen]
    exact ⟨_, rfl, rfl, rfl, rfl, State.progressOf_goOn_self hsome _, fun h => absurd h hgen, fun _ => rfl⟩

/-! ## Fields and reserved bits as masks -/

/-- The `n`-bit field of an identifier from bit `k` up, as the walks cut it out: a shift and a mask of `m` bits, which may
be wider than the field where the identifier ends with it. -/
theorem ushiftRight_and_lowMask_eq_field {w : Nat} (x : BitVec w) (hw : w ≤ 64) {k m n : Nat} (hn : n ≤ m)
    (hend : n = m ∨ w ≤ k + n) : (x.setWidth 64 >>> k) &&& lowMask m = (x.extractLsb' k n).setWidth 64 := by
  apply BitVec.eq_of_getLsbD_eq
  intro i hi
  rw [BitVec.getLsbD_and, getLsbD_lowMask m hi, BitVec.getLsbD_ushiftRight, BitVec.getLsbD_setWidth,
    BitVec.getLsbD_setWidth, BitVec.getLsbD_extractLsb']
  cases hx : x.getLsbD (k + i) with
  | false => simp
  | true =>
    have hlt : k + i < w := BitVec.lt_of_getLsbD hx
    have hiff : i < m ↔ i < n := by omega
    simp [hi, hiff, hlt.trans_le hw]

theorem ne_zero_iff_exists_bit {w : Nat} {x : BitVec w} : x ≠ 0 ↔ ∃ i, i < w ∧ x.getLsbD i = true := by
  constructor
  · intro h
    by_contra hnone
    exact h (BitVec.eq_of_getLsbD_eq fun i hi => by simpa [hi] using not_exists.1 hnone i)
  · rintro ⟨i, -, hx⟩ rfl
    simp at hx

/-- Some bit of a mask is set in a word. -/
theorem and_ne_zero_iff {x m : Word} : x &&& m ≠ 0 ↔ ∃ i, i < 64 ∧ m.getLsbD i = true ∧ x.getLsbD i = true := by
  simp only [ne_zero_iff_exists_bit, BitVec.getLsbD_and, Bool.and_eq_true, and_comm]

/-- Some bit of a field is set. -/
theorem extractLsb'_ne_zero_iff {x : Word} {k n : Nat} :
    x.extractLsb' k n ≠ 0 ↔ ∃ i, k ≤ i ∧ i < k + n ∧ x.getLsbD i = true := by
  rw [ne_zero_iff_exists_bit]
  constructor
  · rintro ⟨i, hi, hx⟩
    exact ⟨k + i, Nat.le_add_right .., Nat.add_lt_add_left hi k, by simpa [BitVec.getLsbD_extractLsb', hi] using hx⟩
  · rintro ⟨i, hlow, hhigh, hx⟩
    have hi : i - k < n := by omega
    exact ⟨i - k, hi, by simpa [BitVec.getLsbD_extractLsb', hi, Nat.add_sub_cancel' hlow] using hx⟩

/-- `DDTE_RSVD` (R122), bit by bit. -/
theorem getLsbD_ddteRsvd : ∀ i, i < 64 → ddteRsvd.getLsbD i = decide (1 ≤ i ∧ i < 10 ∨ 54 ≤ i) := by decide

/-- The reserved bits of a process context's `ta` (R137), bit by bit. -/
theorem getLsbD_pcTaRsvd : ∀ i, i < 64 → pcTaRsvd.getLsbD i = decide (3 ≤ i ∧ i < 12 ∨ 32 ≤ i) := by decide

/-- `TC_RSVD` (R126), bit by bit. -/
theorem getLsbD_tcRsvd (p : Params) {i : Nat} (hi : i < 64) :
    (tcRsvd p).getLsbD i = decide (12 ≤ i ∧ i ≠ p.tcAprqBit) := by
  rw [tcRsvd, ← BitVec.twoPow_eq, BitVec.getLsbD_and, BitVec.getLsbD_not, BitVec.getLsbD_not, getLsbD_lowMask 12 hi,
    BitVec.getLsbD_twoPow]
  rw [Bool.eq_iff_iff]
  simp [hi, ne_comm (a := i)]
  omega

theorem and_ddteRsvd_ne_zero_iff {de : Word} : de &&& ddteRsvd ≠ 0 ↔ de.extractLsb' 1 9 ≠ 0 ∨ de.extractLsb' 54 10 ≠ 0 := by
  rw [and_ne_zero_iff, extractLsb'_ne_zero_iff, extractLsb'_ne_zero_iff]
  constructor
  · rintro ⟨i, hi, hm, hx⟩
    rw [getLsbD_ddteRsvd i hi, decide_eq_true_iff] at hm
    rcases hm with ⟨hlow, hhigh⟩ | hlow
    · exact .inl ⟨i, hlow, hhigh, hx⟩
    · exact .inr ⟨i, hlow, hi, hx⟩
  · rintro (⟨i, hlow, hhigh, hx⟩ | ⟨i, hlow, hhigh, hx⟩)
    · exact ⟨i, by omega, (getLsbD_ddteRsvd i (by omega)).trans (decide_eq_true (.inl ⟨hlow, hhigh⟩)), hx⟩
    · exact ⟨i, hhigh, (getLsbD_ddteRsvd i hhigh).trans (decide_eq_true (.inr hlow)), hx⟩

theorem and_pcTaRsvd_ne_zero_iff {pta : Word} :
    pta &&& pcTaRsvd ≠ 0 ↔ ∃ i, (3 ≤ i ∧ i < 12 ∨ 32 ≤ i ∧ i < 64) ∧ pta.getLsbD i = true := by
  rw [and_ne_zero_iff]
  refine exists_congr fun i => ⟨fun ⟨hi, hm, hx⟩ => ?_, fun ⟨hm, hx⟩ => ?_⟩
  · rw [getLsbD_pcTaRsvd i hi, decide_eq_true_iff] at hm
    exact ⟨hm.imp_right fun hlow => ⟨hlow, hi⟩, hx⟩
  · have hi : i < 64 := by omega
    exact ⟨hi, (getLsbD_pcTaRsvd i hi).trans (decide_eq_true (hm.imp_right And.left)), hx⟩

theorem and_tcRsvd_ne_zero_iff {p : Params} {tc : Word} :
    tc &&& tcRsvd p ≠ 0 ↔ ∃ i, 12 ≤ i ∧ i < 64 ∧ i ≠ p.tcAprqBit ∧ tc.getLsbD i = true := by
  rw [and_ne_zero_iff]
  refine exists_congr fun i => ⟨fun ⟨hi, hm, hx⟩ => ?_, fun ⟨hlow, hi, hne, hx⟩ => ?_⟩
  · rw [getLsbD_tcRsvd p hi, decide_eq_true_iff] at hm
    obtain ⟨hlow, hne⟩ := hm
    exact ⟨hlow, hi, hne, hx⟩
  · exact ⟨hi, (getLsbD_tcRsvd p hi).trans (decide_eq_true ⟨hlow, hne⟩), hx⟩

/-! ## The addresses of the directory entries (R208, R210, R222, R223) -/

/-- Settles O26: each address is the page plus one field of the identifier times the entry size. -/
theorem directoryIndices : Obligations.DirectoryIndices := by
  intro p devid pid page
  have hdev {k m n : Nat} (hn : n ≤ m) (hend : n = m ∨ 24 ≤ k + n) :=
    ushiftRight_and_lowMask_eq_field devid (by decide) (k := k) hn hend
  have hpid {k m n : Nat} (hn : n ≤ m) (hend : n = m ∨ 20 ≤ k + n) :=
    ushiftRight_and_lowMask_eq_field pid (by decide) (k := k) hn hend
  have hdev0 (n : Nat) : devid.setWidth 64 &&& lowMask n = (devid.extractLsb' 0 n).setWidth 64 := by
    simpa using hdev (k := 0) (Nat.le_refl n) (.inl rfl)
  have hpid0 : pid.setWidth 64 &&& lowMask 8 = (pid.extractLsb' 0 8).setWidth 64 := by
    simpa using hpid (k := 0) (Nat.le_refl 8) (.inl rfl)
  refine ⟨fun hext => ?_, fun hbase => ?_, ?_, ?_, ?_⟩
  · simp only [ddEntryAddr, dcAddr, leafBits, dcDwords, Params.dcExt, hext, if_true]
    refine ⟨?_, ?_, ?_⟩
    · exact congrArg (page + · * 8) (hdev (n := 9) (by decide) (by decide))
    · exact congrArg (page + · * 8) (hdev (n := 9) (by decide) (by decide))
    · exact congrArg (page + · * 64) (hdev0 6)
  · simp only [ddEntryAddr, dcAddr, leafBits, dcDwords, Params.dcExt, hbase]
    refine ⟨?_, ?_, ?_⟩
    · exact congrArg (page + · * 8) (hdev (n := 9) (by decide) (by decide))
    · exact congrArg (page + · * 8) (hdev (n := 8) (by decide) (by decide))
    · exact congrArg (page + · * 32) (hdev0 7)
  · exact congrArg (page + · * 8) (hpid (n := 9) (by decide) (by decide))
  · exact congrArg (page + · * 8) (hpid (n := 3) (by decide) (by decide))
  · exact congrArg (page + · * 16) hpid0

/-! ## The non-leaf directory entries (R208, R222) -/

/-- Where the outcome of an entry's checks leads: to the report, or on. -/
def dirPhase (dtf : Bool) (next : Word → CtxPhase) : Except Cause Word → CtxPhase
  | .error cause => .report cause dtf
  | .ok page => next page

/-- The checks of an entry that has been read, in order. -/
theorem dirPhase_dirEntry_some (dtf : Bool) (next : Word → CtxPhase) (de : Word) (load invalid misconfigured : Cause) :
    dirPhase dtf next (dirEntry (some de) load invalid misconfigured) =
      if de.getLsbD 0 = false then .report invalid dtf
      else if de.extractLsb' 1 9 ≠ 0 ∨ de.extractLsb' 54 10 ≠ 0 then .report misconfigured dtf
      else next (0#8 ++ de.extractLsb' 10 44 ++ 0#12) := by
  simp only [dirEntry, Bool.not_eq_true', and_ddteRsvd_ne_zero_iff, pageBase_eq_append, dirPpn]
  split_ifs <;> rfl

theorem ctxDdEntryStep_eq (f : InFlight) (lvl : Nat) (page : Word) (s : State) :
    ctxDdEntryStep f lvl page s =
      ((s.event f .ddWalk).logAccess .read (ddEntryAddr s.params f.req.devid lvl page) 8
        (s.readWord (ddEntryAddr s.params f.req.devid lvl page) 8).isSome).goOn f (.resolving
          (dirPhase false (ddPhase (lvl - 1)) (dirEntry (s.readWord (ddEntryAddr s.params f.req.devid lvl page) 8)
            .ddtLoadFault .ddtInvalid .ddtMisconfigured))) := by
  dsimp only [ctxDdEntryStep]
  split <;> next h => rw [h]; rfl

theorem ctxPdEntryStep_eq (f : InFlight) (ctx : Ctx) (lvl : Nat) (page : Word) (s : State) :
    ctxPdEntryStep f ctx lvl page s =
      ((s.event f .pdWalk).logAccess .read (pdEntryAddr f.req.pid lvl page) 8
        (s.readWord (pdEntryAddr f.req.pid lvl page) 8).isSome).goOn f (.resolving
          (dirPhase (tcDtf ctx.tc) (pdPhase ctx (lvl - 1)) (dirEntry (s.readWord (pdEntryAddr f.req.pid lvl page) 8)
            .pdtLoadFault .pdtInvalid .pdtMisconfigured))) := by
  dsimp only [ctxPdEntryStep]
  split <;> next h => rw [h]; rfl

/-- Settles O27: the two steps by what the entry's checks lead to. -/
theorem directoryEntryChecks : Obligations.DirectoryEntryChecks := by
  intro f s lvl page
  refine ⟨fun hf => ?dd, fun ctx hf => ?pd⟩
  case dd =>
    intro a
    rw [requestStep_resolving hf, ctxStep, ctxDdEntryStep_eq, State.event_resolving hf]
    refine congrArg (fun ph => Host.Outcome.next (State.goOn _ f (.resolving ph))) ?_
    cases s.readWord a 8 with
    | none => rfl
    | some de => exact dirPhase_dirEntry_some ..
  case pd =>
    intro a
    rw [requestStep_resolving hf, ctxStep, ctxPdEntryStep_eq, State.event_resolving hf]
    refine congrArg (fun ph => Host.Outcome.next (State.goOn _ f (.resolving ph))) ?_
    cases s.readWord a 8 with
    | none => rfl
    | some pe => exact dirPhase_dirEntry_some ..

/-! ## The steps that read a context (R211, R224) -/

/-- Where the outcome of a context's checks leads. -/
def contextPhase : CtxOutcome → CtxPhase
  | .fail cause dtf => .report cause dtf
  | .done ctx => .insert ctx
  | .processDirectory ctx levels => pdPhase ctx (levels - 1) (pageBase (ppnField ctx.satp))

theorem ctxContinue_eq (f : InFlight) (o : CtxOutcome) (s : State) :
    ctxContinue f o s = s.goOn f (.resolving (contextPhase o)) := by
  cases o <;> rfl

/-! ## The supported modes (R128, R130, R131) -/

/-- Both geometry functions choose by the family, then by the mode and its flag in `CAP`: when they find one. -/
theorem modeChoice_isSome_iff (family c32 c39 c48 c57 : Bool) (mode : BitVec 4) (g32 g39 g48 g57 : Geometry) :
    (if family then if mode = 8 ∧ c32 then some g32 else none
      else if mode = 8 ∧ c39 then some g39
      else if mode = 9 ∧ c48 then some g48
      else if mode = 10 ∧ c57 then some g57
      else none).isSome = true ↔
    (family = false ∧ ((mode = 8 ∧ c39 = true) ∨ (mode = 9 ∧ c48 = true) ∨ (mode = 10 ∧ c57 = true))) ∨
      (family = true ∧ mode = 8 ∧ c32 = true) := by
  cases family with
  | false => split_ifs with hfamily h8 h9 h10 <;> simp_all
  | true => simp

theorem gModeSupported_iff {cap : Cap} {gxl : Bool} {mode : BitVec 4} :
    gModeSupported cap gxl mode = true ↔ gModeListed cap gxl mode := by
  rw [gModeSupported, Bool.or_eq_true, decide_eq_true_iff]
  exact or_congr_right (modeChoice_isSome_iff ..)

theorem sModeSupported_iff {cap : Cap} {sxl : Bool} {mode : BitVec 4} :
    sModeSupported cap sxl mode = true ↔ sModeListed cap sxl mode := by
  rw [sModeSupported, Bool.or_eq_true, decide_eq_true_iff]
  exact or_congr_right (modeChoice_isSome_iff ..)

/-- A listed process-directory mode has as many levels as its number (R131, R219). -/
theorem pdLevels_of_listed {cap : Cap} {mode : BitVec 4} (h : pdModeListed cap mode) : pdLevels cap mode = some mode.toNat := by
  rcases h with rfl | ⟨rfl, hpd⟩ | ⟨rfl, hpd⟩ | ⟨rfl, hpd⟩
  · rfl
  all_goals simp [pdLevels, hpd]

theorem pdLevels_isNone_iff {cap : Cap} {mode : BitVec 4} : (pdLevels cap mode).isNone = true ↔ ¬ pdModeListed cap mode := by
  refine ⟨fun h hlisted => by simp [pdLevels_of_listed hlisted] at h, fun h => ?_⟩
  simp only [pdModeListed, not_or] at h
  obtain ⟨h0, h1, h2, h3⟩ := h
  rw [pdLevels, if_neg h0, if_neg h1, if_neg h2, if_neg h3]
  rfl

theorem msiModeSupported_iff {cap : Cap} {mode : BitVec 4} :
    msiModeSupported cap mode = true ↔ mode = 0 ∨ mode = 1 ∧ cap.msiFlat = true := by
  simp [msiModeSupported]

/-! ## The device context (R211 to R215) -/

/-- The checks of R215, one by one. -/
theorem dcMisconfigured_iff {p : Params} {c : Ctx} : dcMisconfigured p c = true ↔ dcBad p c.tc c.gatp c.satp c.msiptp := by
  simp only [dcMisconfigured, dcBad, Bool.or_eq_true, Bool.and_eq_true, Bool.not_eq_true', decide_eq_true_iff, or_assoc,
    and_tcRsvd_ne_zero_iff, ← Bool.not_eq_true (gModeSupported _ _ _), ← Bool.not_eq_true (sModeSupported _ _ _),
    ← Bool.not_eq_true (msiModeSupported _ _), gModeSupported_iff, sModeSupported_iff, msiModeSupported_iff, pdLevels_isNone_iff]
  exact Iff.rfl

theorem deviceContext_of_invalid {p : Params} {r : Request} {ds : List Word} (hv : tcV (deviceCtx p r ds).tc = false) :
    deviceContext p r (some ds) = .fail .ddtInvalid (tcDtf (deviceCtx p r ds).tc) := by
  simp [deviceContext, hv]

theorem deviceContext_of_bad {p : Params} {r : Request} {ds : List Word} (hv : tcV (deviceCtx p r ds).tc = true)
    (hbad : dcMisconfigured p (deviceCtx p r ds) = true) :
    deviceContext p r (some ds) = .fail .ddtMisconfigured (tcDtf (deviceCtx p r ds).tc) := by
  simp [deviceContext, hv, hbad]

theorem deviceContext_of_good {p : Params} {r : Request} {ds : List Word} (hv : tcV (deviceCtx p r ds).tc = true)
    (hgood : ¬ dcMisconfigured p (deviceCtx p r ds) = true) :
    deviceContext p r (some ds) = selectProcess p (deviceCtx p r ds) := by
  simp [deviceContext, hv, hgood]

/-- Only the words of the context decide what it leads to. -/
theorem deviceContext_congr {p : Params} {r : Request} {ds es : List Word} (h : deviceCtx p r ds = deviceCtx p r es) :
    deviceContext p r (some ds) = deviceContext p r (some es) := by
  simp only [deviceContext, h]

/-- The base format takes the first four words (R212). -/
theorem deviceCtx_base {p : Params} (hbase : p.cap.msiFlat = false) (r : Request) (tc gatp ta satp : Word) (ds : List Word) :
    deviceCtx p r (tc :: gatp :: ta :: satp :: ds) = deviceCtx p r [tc, gatp, ta, satp] := by
  simp [deviceCtx, Params.dcExt, hbase]

/-- Settles O28: the step by `ctxContinue_eq`, and the checks in order by the lemmas about `deviceContext`. -/
theorem deviceContextChecks : Obligations.DeviceContextChecks := by
  refine ⟨fun f s page hf => ?step, fun p r => ⟨rfl, fun tc gatp ta satp msiptp mask pattern d7 => ?words⟩⟩
  case step =>
    intro a n r
    rw [requestStep_resolving hf, ctxStep, ctxDdLeafStep, ctxContinue_eq, State.event_resolving hf]
    refine congrArg (fun ph => Host.Outcome.next (State.goOn _ f (.resolving ph))) ?_
    show contextPhase (deviceContext s.params f.req r) = _
    cases deviceContext s.params f.req r with
    | fail cause dtf => rfl
    | done ctx => rfl
    | processDirectory ctx levels => exact congrArg (pdPhase ctx (levels - 1)) (pageBase_eq_append _)
  case words =>
    intro c o
    refine ⟨fun hv => deviceContext_of_invalid hv, fun hv hbad => deviceContext_of_bad hv (dcMisconfigured_iff.2 hbad),
      fun hv hgood => deviceContext_of_good hv (mt dcMisconfigured_iff.1 hgood), fun hbase => ?_⟩
    exact deviceContext_congr (deviceCtx_base hbase r tc gatp ta satp _).symm

/-! ## The process selection (R216 to R220) -/

section
variable {p : Params} {c : Ctx}

theorem selectProcess_of_no_pdtv (hpdtv : tcPdtv c.tc = false) :
    selectProcess p c = if c.pid = 0 then .done c else .fail .transactionTypeDisallowed (tcDtf c.tc) := by
  rw [selectProcess, hpdtv, if_pos (by decide), ite_not]

theorem selectProcess_of_no_process (hpdtv : tcPdtv c.tc = true) (hpid : c.pid = 0 ∧ tcDpe c.tc = false) :
    selectProcess p c = .done { c with satp := 0 } := by
  rw [selectProcess, hpdtv, if_neg (by decide), if_pos (hpid.imp_right fun h => by rw [h]; rfl)]

/-- With a process selected the mode decides: Bare, or a directory of as many levels as its number. -/
theorem selectProcess_of_process (hpdtv : tcPdtv c.tc = true) (hpid : ¬ (c.pid = 0 ∧ tcDpe c.tc = false))
    (hmode : pdModeListed p.cap (modeField c.satp)) :
    selectProcess p c =
      if modeField c.satp = 0 then .done c
      else if 2 ^ ([8, 17, 20].getD ((modeField c.satp).toNat - 1) 0) ≤ c.pid.toNat then
        .fail .transactionTypeDisallowed (tcDtf c.tc)
      else .processDirectory c (modeField c.satp).toNat := by
  rw [selectProcess, hpdtv, if_neg (by decide), if_neg (by simpa using hpid), pdLevels_of_listed hmode]
  rcases hmode with h | ⟨h, -⟩ | ⟨h, -⟩ | ⟨h, -⟩ <;> rw [h] <;> rfl

end

/-- Settles O29, by whether the context has process directories and whether a process is selected. -/
theorem processSelection : Obligations.ProcessSelection := by
  intro p c hmode
  cases hpdtv : c.tc.getLsbD 5 with
  | false => exact selectProcess_of_no_pdtv hpdtv
  | true =>
    rw [if_neg (by decide)]
    by_cases hpid : c.pid = 0 ∧ c.tc.getLsbD 9 = false
    · rw [if_pos hpid]
      exact selectProcess_of_no_process hpdtv hpid
    · rw [if_neg hpid]
      exact selectProcess_of_process hpdtv hpid (hmode hpdtv)

/-! ## The process context (R224 to R227) -/

theorem processContext_pair (p : Params) (c : Ctx) (pta pfsc : Word) :
    processContext p c (some [pta, pfsc]) =
      if pta.getLsbD 0 = false then .fail .pdtInvalid (tcDtf c.tc)
      else if pta &&& pcTaRsvd ≠ 0 ∨ ¬ sModeSupported p.cap (tcSxl c.tc) (modeField pfsc) = true then
        .fail .pdtMisconfigured (tcDtf c.tc)
      else .done { c with ta := pta, satp := pfsc } := by
  simp [processContext]

/-- A process context leads to no further directory. -/
theorem processContext_ne_processDirectory (p : Params) (c : Ctx) (ds : Option (List Word)) (c' : Ctx) (levels : Nat) :
    processContext p c ds ≠ .processDirectory c' levels := by
  unfold processContext
  split
  · nofun
  · dsimp only
    split_ifs <;> nofun

/-- Settles O30: the step by `ctxContinue_eq`, and the checks in order by `processContext_pair`. -/
theorem processContextChecks : Obligations.ProcessContextChecks := by
  refine ⟨fun f ctx s page hf => ?step, processContext_ne_processDirectory, fun p c => ⟨rfl, fun pta pfsc => ?words⟩⟩
  case step =>
    intro a r
    rw [requestStep_resolving hf, ctxStep, ctxPdLeafStep, ctxContinue_eq, State.event_resolving hf]
    refine congrArg (fun ph => Host.Outcome.next (State.goOn _ f (.resolving ph))) ?_
    show contextPhase (processContext s.params ctx r) = _
    cases processContext s.params ctx r <;> rfl
  case words =>
    intro bad o
    have hbad : (pta &&& pcTaRsvd ≠ 0 ∨ ¬ sModeSupported p.cap (tcSxl c.tc) (modeField pfsc) = true) ↔ bad :=
      or_congr and_pcTaRsvd_ne_zero_iff (not_congr sModeSupported_iff)
    have ho : o = _ := processContext_pair p c pta pfsc
    refine ⟨fun hv => ?_, fun hv hb => ?_, fun hv hb => ?_⟩
    · rw [ho, if_pos hv]; rfl
    · rw [ho, hv, if_neg (by decide), if_pos (hbad.2 hb)]; rfl
    · rw [ho, hv, if_neg (by decide), if_neg (mt hbad.1 hb)]

/-! ## Every request ends (the spec's own inference 70_reset_and_hazards.md R491)

Each phase of a request has a bound on the steps the request still takes from it, the return of its result included. Every
step but that return leads to a phase with a smaller bound: a walk goes down one level, a level of stage 1 costs at most
the five levels of its implicit stage-2 translation and its own read, and everything else is a chain. -/

/-- For a request with a resolved context. -/
def XlatePhase.stepsLeft : XlatePhase → Nat
  | .report _ _ => 2
  | .tlbInsert _ _ _ => 2
  | .tlbRoom _ _ _ => 3
  | .mrifNotice _ => 3
  | .msiForward _ _ _ => 3
  | .mrifEnable _ _ _ => 4
  | .mrifPendingWrite _ _ _ _ => 5
  | .mrifPendingRead _ _ _ => 6
  | .msiPte _ _ _ _ => 7
  | .gWalk w => 4 + w.level
  | .sWalk w _ => 9 + 6 * w.level
  | .sImplicit w g => 10 + 6 * w.level + g.level
  | .lookup => 39

/-- For a request that is resolving its context, the translation after it included. -/
def CtxPhase.stepsLeft : CtxPhase → Nat
  | .report _ _ => 2
  | .insert _ => 40
  | .pdLeaf _ _ => 41
  | .pdEntry _ lvl _ => 42 + lvl
  | .ddLeaf _ => 45
  | .ddEntry lvl _ => 46 + lvl
  | .walk => 49
  | .makeRoom => 50
  | .lookup => 51

/-- For a request wherever it stands; the return of its result is one step. -/
def Progress.stepsLeft : Progress → Nat
  | .resolving ph => ph.stepsLeft
  | .translating _ ph => ph.stepsLeft
  | .ending _ => 1

theorem Progress.stepsLeft_pos (q : Progress) : 0 < q.stepsLeft := by
  cases q with
  | resolving ph => cases ph <;> simp [Progress.stepsLeft, CtxPhase.stepsLeft]
  | translating ctx ph => cases ph <;> simp [Progress.stepsLeft, XlatePhase.stepsLeft, Nat.add_assoc]
  | ending r => exact Nat.one_pos

/-- The directories have at most three levels. -/
theorem CtxPhase.stepsLeft_lt {p : Params} {ph : CtxPhase} (hok : ph.ok p = true) : ph.stepsLeft < 64 := by
  cases ph with
  | ddEntry lvl page =>
    have hlvl : lvl ≤ 2 := by simpa [CtxPhase.ok] using hok
    simp only [CtxPhase.stepsLeft]; omega
  | pdEntry ctx lvl page =>
    obtain ⟨-, hlvl⟩ : _ ∧ lvl ≤ 2 := by simpa [CtxPhase.ok] using hok
    simp only [CtxPhase.stepsLeft]; omega
  | _ => simp [CtxPhase.stepsLeft]

/-- The tables of a stage have at most five levels. -/
theorem XlatePhase.stepsLeft_lt {kind : ReqKind} {ph : XlatePhase} (hok : ph.ok kind = true) : ph.stepsLeft < 64 := by
  cases ph with
  | sWalk w pa =>
    obtain ⟨hw, -⟩ := WalkState.ok_iff.1 hok
    simp only [XlatePhase.stepsLeft]; omega
  | sImplicit w g =>
    obtain ⟨hwok, hg⟩ : w.ok kind = true ∧ g.level < 5 := by simpa [XlatePhase.ok] using hok
    obtain ⟨hw, -⟩ := WalkState.ok_iff.1 hwok
    simp only [XlatePhase.stepsLeft]; omega
  | gWalk w =>
    obtain ⟨hw, -⟩ := WalkState.ok_iff.1 hok
    simp only [XlatePhase.stepsLeft]; omega
  | _ => simp [XlatePhase.stepsLeft]

/-- A sound request is less than 64 steps from its end. -/
theorem InFlight.stepsLeft_lt {f : InFlight} {p : Params} (hok : f.ok p = true) : f.progress.stepsLeft < 64 := by
  cases hq : f.progress with
  | resolving ph => exact CtxPhase.stepsLeft_lt (p := p) (by simpa [InFlight.ok, hq] using hok)
  | translating ctx ph => exact XlatePhase.stepsLeft_lt ((InFlight.ok_translating hq).1 hok).2
  | ending r => exact (by decide : 1 < 64)

/-! ### A request in flight, with the steps it has left -/

/-- The request numbered `id` is in flight, at most `n` steps from its end. -/
def State.Within (s : State) (id n : Nat) : Prop := ∃ q, s.progressOf id = some q ∧ q.stepsLeft ≤ n

/-- The outcome is no fault and no refusal, and in its state the request numbered `id` is at most `n` steps from its end. -/
def NextWithin (o : Host.Outcome State Fault Refusal) (id n : Nat) : Prop := ∃ t, o = .next t ∧ t.Within id n

theorem State.Within.mono {s : State} {id n m : Nat} (h : s.Within id n) (hle : n ≤ m) : s.Within id m := by
  obtain ⟨q, hq, hn⟩ := h
  exact ⟨q, hq, hn.trans hle⟩

theorem NextWithin.mono {o : Host.Outcome State Fault Refusal} {id n m : Nat} (h : NextWithin o id n) (hle : n ≤ m) :
    NextWithin o id m := by
  obtain ⟨t, ho, ht⟩ := h
  exact ⟨t, ho, ht.mono hle⟩

theorem NextWithin.of_next {t : State} {id n : Nat} (h : t.Within id n) : NextWithin (.next t) id n := ⟨t, rfl, h⟩

theorem State.Within.goOn {s : State} {f : InFlight} {id n : Nat} (hin : (s.lookupInflight id).isSome) {q : Progress}
    (h : q.stepsLeft ≤ n) (hid : f.id = id := by rfl) : (s.goOn f q).Within id n := by
  subst hid
  exact ⟨q, State.progressOf_goOn_self hin q, h⟩

theorem State.Within.conclude {s : State} {f : InFlight} {id n : Nat} (hin : (s.lookupInflight id).isSome) (r : Result)
    (h : 1 ≤ n) (hid : f.id = id := by rfl) : (s.conclude f r).Within id n := .goOn hin h hid

theorem State.Within.releaseGenerations {s : State} {id n : Nat} (h : s.Within id n) : s.releaseGenerations.Within id n := h

/-- What a request does to the rest of the block leaves the requests in flight as they are. -/
theorem RequestEffect.inflight {f : InFlight} {s u : State} (h : RequestEffect f s u) : u.inflight = s.inflight := by
  cases h with
  | write hw => rcases State.memWrite_cases hw with ⟨-, -, rfl⟩ | ⟨-, -, rfl⟩ <;> rfl
  | enqueueFq rec =>
    obtain ⟨q, mem, l, hu, -⟩ := State.enqueueFq_state s rec
    rw [hu]
  | enqueuePq rec =>
    obtain ⟨q, mem, l, hu, -⟩ := State.enqueuePq_state s rec
    rw [hu]
  | _ => rfl

theorem RequestEffect.lookupInflight {f : InFlight} {s u : State} (h : RequestEffect f s u) (id : Nat) :
    u.lookupInflight id = s.lookupInflight id := by
  rw [State.lookupInflight, State.lookupInflight, h.inflight]

section
variable {f : InFlight} {ctx : Ctx} {s : State}

/-! ### Context resolution -/

theorem ddPhase_pred_stepsLeft_le (lvl : Nat) (page : Word) : (ddPhase (lvl - 1) page).stepsLeft ≤ 45 + lvl := by
  unfold ddPhase
  split <;> simp only [CtxPhase.stepsLeft] <;> omega

theorem pdPhase_pred_stepsLeft_le (ctx : Ctx) (lvl : Nat) (page : Word) : (pdPhase ctx (lvl - 1) page).stepsLeft ≤ 41 + lvl := by
  unfold pdPhase
  split <;> simp only [CtxPhase.stepsLeft] <;> omega

theorem dirPhase_stepsLeft_le {next : Word → CtxPhase} {n : Nat} (hnext : ∀ page, (next page).stepsLeft ≤ n) (hn : 2 ≤ n)
    (dtf : Bool) (o : Except Cause Word) : (dirPhase dtf next o).stepsLeft ≤ n := by
  cases o with
  | error cause => exact hn
  | ok page => exact hnext page

theorem contextPhase_deviceContext_stepsLeft_le (p : Params) (r : Request) (ds : Option (List Word)) :
    (contextPhase (deviceContext p r ds)).stepsLeft ≤ 44 := by
  have hok := deviceContext_ok p r ds
  cases ho : deviceContext p r ds with
  | fail cause dtf => exact (by decide : 2 ≤ 44)
  | done ctx => exact (by decide : 40 ≤ 44)
  | processDirectory ctx levels =>
    rw [ho] at hok
    obtain ⟨-, hlev⟩ : _ ∧ levels ≤ 3 := by simpa [CtxOutcome.ok] using hok
    exact (pdPhase_pred_stepsLeft_le ctx levels _).trans (by omega)

theorem contextPhase_processContext_stepsLeft_le (p : Params) (c : Ctx) (ds : Option (List Word)) :
    (contextPhase (processContext p c ds)).stepsLeft ≤ 40 := by
  cases ho : processContext p c ds with
  | fail cause dtf => exact (by decide : 2 ≤ 40)
  | done ctx => exact Nat.le_refl 40
  | processDirectory c' levels => exact absurd ho (processContext_ne_processDirectory p c ds c' levels)

theorem ctxLookupStep_within (hin : (s.lookupInflight f.id).isSome) : (ctxLookupStep f s).Within f.id 50 := by
  dsimp only [ctxLookupStep]
  split
  · split
    · exact .goOn hin (by decide : 39 ≤ 50)
    · exact .goOn hin (Nat.le_refl 50)
  · exact .goOn hin (Nat.le_refl 50)

theorem ctxMakeRoomStep_within (hin : (s.lookupInflight f.id).isSome) : (ctxMakeRoomStep f s).Within f.id 49 := by
  unfold ctxMakeRoomStep
  split
  · exact .releaseGenerations (.goOn hin (Nat.le_refl 49))
  · exact .goOn hin (Nat.le_refl 49)

theorem ctxWalkStep_within (hin : (s.lookupInflight f.id).isSome) : (ctxWalkStep f s).Within f.id 48 := by
  unfold ctxWalkStep
  split
  · exact .goOn hin (by decide : 2 ≤ 48)
  · exact .goOn hin (by decide : 40 ≤ 48)
  · split
    · exact .goOn hin (by decide : 2 ≤ 48)
    · exact .goOn hin ((ddPhase_pred_stepsLeft_le _ _).trans (Nat.add_le_add_left s.ddtp.mode.levels_le 45))

theorem ctxInsertStep_within (hin : (s.lookupInflight f.id).isSome) : (ctxInsertStep f ctx s).Within f.id 39 := by
  dsimp only [ctxInsertStep]
  split <;> exact .goOn hin (Nat.le_refl 39)

theorem ctxReportStep_within (hin : (s.lookupInflight f.id).isSome) (cause : Cause) (dtf : Bool) :
    (ctxReportStep f cause dtf s).Within f.id 1 :=
  .conclude (by rwa [(reportContext_effect f f.req cause dtf s).lookupInflight]) _ (Nat.le_refl 1)

/-- A step of the context resolution. -/
theorem ctxStep_within (hin : (s.lookupInflight f.id).isSome) (ph : CtxPhase) :
    (ctxStep f ph s).Within f.id (ph.stepsLeft - 1) := by
  cases ph with
  | lookup => exact ctxLookupStep_within hin
  | makeRoom => exact ctxMakeRoomStep_within hin
  | walk => exact ctxWalkStep_within hin
  | ddEntry lvl page =>
    rw [ctxStep, ctxDdEntryStep_eq]
    refine .goOn hin (dirPhase_stepsLeft_le (fun next => ?_) ?_ _ _)
    · exact (ddPhase_pred_stepsLeft_le lvl next).trans (by simp only [CtxPhase.stepsLeft]; omega)
    · simp only [CtxPhase.stepsLeft]; omega
  | ddLeaf page =>
    rw [ctxStep, ctxDdLeafStep, ctxContinue_eq]
    exact .goOn hin (contextPhase_deviceContext_stepsLeft_le _ _ _)
  | pdEntry ctx lvl page =>
    rw [ctxStep, ctxPdEntryStep_eq]
    refine .goOn hin (dirPhase_stepsLeft_le (fun next => ?_) ?_ _ _)
    · exact (pdPhase_pred_stepsLeft_le ctx lvl next).trans (by simp only [CtxPhase.stepsLeft]; omega)
    · simp only [CtxPhase.stepsLeft]; omega
  | pdLeaf ctx page =>
    rw [ctxStep, ctxPdLeafStep, ctxContinue_eq]
    exact .goOn hin (contextPhase_processContext_stepsLeft_le _ _ _)
  | insert ctx => exact ctxInsertStep_within hin
  | report cause dtf => exact ctxReportStep_within hin cause dtf

/-! ### Translation -/

/-- A context with supported modes and stage 2 enabled has a stage-2 geometry, of at most five levels (R271). -/
theorem exists_gGeometry {p : Params} {c : Ctx} (hctx : c.modesOk p = true) (hon : c.stage2On = true) :
    ∃ geom, gGeometry p.cap p.gxl (modeField c.gatp) = some geom ∧ geom.levels ≤ 5 := by
  obtain ⟨hg, -⟩ := Ctx.modesOk_iff.1 hctx
  have hmode : modeField c.gatp ≠ 0 := by simpa [Ctx.stage2On] using hon
  rw [Ctx.gModeOk, gModeSupported, Bool.or_eq_true, decide_eq_true_iff] at hg
  obtain ⟨geom, hgeom⟩ := Option.isSome_iff_exists.1 (hg.resolve_left hmode)
  exact ⟨geom, hgeom, gGeometry_levels_le hgeom⟩

/-- The same for stage 1. -/
theorem exists_sGeometry {p : Params} {c : Ctx} (hctx : c.modesOk p = true) (hon : c.stage1On = true) :
    ∃ geom, sGeometry p.cap (tcSxl c.tc) (modeField c.satp) = some geom ∧ geom.levels ≤ 5 := by
  obtain ⟨-, hs⟩ := Ctx.modesOk_iff.1 hctx
  have hmode : modeField c.satp ≠ 0 := by simpa [Ctx.stage1On] using hon
  rw [sModeSupported, Bool.or_eq_true, decide_eq_true_iff] at hs
  obtain ⟨geom, hgeom⟩ := Option.isSome_iff_exists.1 (hs.resolve_left hmode)
  exact ⟨geom, hgeom, sGeometry_levels_le hgeom⟩

theorem xlateFail_within (hin : (s.lookupInflight f.id).isSome) (cause : Cause) (gpa2 : Word) {n : Nat} (hn : 2 ≤ n) :
    (xlateFail f ctx cause gpa2 s).Within f.id n := .goOn hin hn

theorem msiStart_within (hin : (s.lookupInflight f.id).isSome) (gpa data : Word) (size : AccessSize) :
    (msiStart f ctx gpa data size s).Within f.id 7 := by
  unfold msiStart
  split
  · exact xlateFail_within hin _ _ (by decide)
  · exact .goOn hin (Nat.le_refl 7)

theorem xlateFinish_within (hin : (s.lookupInflight f.id).isSome) (gpa spa m : Word) (p : Perm) :
    (xlateFinish f ctx gpa spa m p s).Within f.id 3 := by
  unfold xlateFinish
  split
  · exact .conclude hin _ (by decide)
  · exact .goOn hin (Nat.le_refl 3)

theorem xlateStage2_within (hin : (s.lookupInflight f.id).isSome) (hctx : ctx.modesOk s.params = true) (gpa m : Word)
    (p : Perm) : NextWithin (xlateStage2 f ctx gpa m p s) f.id 8 := by
  unfold xlateStage2
  split
  · next hon =>
    obtain ⟨geom, hgeom, hlev⟩ := exists_gGeometry hctx hon
    rw [hgeom]
    dsimp only
    split
    · have hroot := startWalk_level_lt hlev .g (ppnField ctx.gatp) gpa m p
      exact .of_next (.goOn hin (by simp only [Progress.stepsLeft, XlatePhase.stepsLeft]; omega))
    · exact .of_next (xlateFail_within hin _ _ (by decide))
  · exact .of_next ((xlateFinish_within hin _ _ _ _).mono (by decide))

theorem xlateAfterStage1_within (hin : (s.lookupInflight f.id).isSome) (hctx : ctx.modesOk s.params = true) (gpa m : Word)
    (p : Perm) : NextWithin (xlateAfterStage1 f ctx gpa m p s) f.id 8 := by
  unfold xlateAfterStage1
  split
  · split
    · exact .of_next ((msiStart_within hin _ _ _).mono (by decide))
    · exact xlateStage2_within hin hctx gpa m p
  all_goals exact xlateStage2_within hin hctx gpa m p

/-- The next entry of stage 1 costs its read and at most five of its implicit translation. -/
theorem xlateStage1Entry_within (hin : (s.lookupInflight f.id).isSome) (hctx : ctx.modesOk s.params = true) (w : WalkState) :
    NextWithin (xlateStage1Entry f ctx w s) f.id (14 + 6 * w.level) := by
  unfold xlateStage1Entry
  split
  · next hon =>
    obtain ⟨geom, hgeom, hlev⟩ := exists_gGeometry hctx hon
    rw [hgeom]
    dsimp only
    split
    · have hroot := startWalk_level_lt hlev .g (ppnField ctx.gatp) w.entryAddr (lowMask 64) Perm.rw
      exact .of_next (.goOn hin (by simp only [Progress.stepsLeft, XlatePhase.stepsLeft]; omega))
    · exact .of_next (xlateFail_within hin _ _ (by omega))
  · exact .of_next (.goOn hin (by simp only [Progress.stepsLeft, XlatePhase.stepsLeft]; omega))

theorem xlateStage1_within (hin : (s.lookupInflight f.id).isSome) (hctx : ctx.modesOk s.params = true)
    (hon : ctx.stage1On = true) : NextWithin (xlateStage1 f ctx s) f.id 38 := by
  obtain ⟨geom, hgeom, hlev⟩ := exists_sGeometry hctx hon
  rw [xlateStage1, hgeom]
  dsimp only
  split
  · have hroot := startWalk_level_lt hlev .s (ppnField ctx.satp) f.req.iova (lowMask 64) Perm.rw
    exact (xlateStage1Entry_within hin hctx _).mono (by omega)
  · exact .of_next (xlateFail_within hin _ _ (by decide))

theorem xlatePassThrough_within (hin : (s.lookupInflight f.id).isSome) : (xlatePassThrough f ctx s).Within f.id 7 := by
  have hdone : (s.conclude f (.ok f.req.iova 0xFFF Perm.rw)).Within f.id 7 := .conclude hin _ (by decide)
  unfold xlatePassThrough
  split
  · split
    · exact msiStart_within hin _ _ _
    · exact hdone
  all_goals exact hdone

theorem xlateMiss_within (hin : (s.lookupInflight f.id).isSome) (hctx : ctx.modesOk s.params = true) :
    NextWithin (xlateMiss f ctx s) f.id 38 := by
  have hin : ((s.event f .tlbMiss).lookupInflight f.id).isSome := hin
  dsimp only [xlateMiss]
  split
  · next hon => exact xlateStage1_within hin hctx hon
  · split
    · exact (xlateAfterStage1_within hin hctx _ _ _).mono (by decide)
    · exact .of_next ((xlatePassThrough_within hin).mono (by decide))

theorem xlateLookupStep_within (hin : (s.lookupInflight f.id).isSome) (hctx : ctx.modesOk s.params = true) :
    NextWithin (xlateLookupStep f ctx s) f.id 38 := by
  dsimp only [xlateLookupStep]
  split
  · exact .of_next (.conclude hin _ (by decide))
  · have hmiss := xlateMiss_within (f := { f with tlbGen := some s.iotlb.current.number }) hin hctx
    split
    · split
      · exact .of_next (.conclude hin _ (by decide))
      · exact hmiss
    · exact hmiss

/-- Only an entry above level 0 is a pointer (R278, R279). -/
theorem level_pos_of_pointer {kind : ReqKind} {ade : Bool} {w : WalkState} {pte base : Word}
    (h : walkEntry kind ade w pte = .pointer base) : 0 < w.level := by
  unfold walkEntry at h
  split_ifs at h with _ _ hlevel
  exact Nat.pos_of_ne_zero hlevel

theorem xlateSWalkStep_within (hin : (s.lookupInflight f.id).isSome) (hctx : ctx.modesOk s.params = true) (w : WalkState)
    (pa : Word) : NextWithin (xlateSWalkStep f ctx w pa s) f.id (8 + 6 * w.level) := by
  dsimp only [xlateSWalkStep]
  split
  · exact .of_next (xlateFail_within hin _ _ (by omega))
  · split
    · exact .of_next (xlateFail_within hin _ _ (by omega))
    · next base hpointer =>
      have hpos := level_pos_of_pointer hpointer
      refine .mono (xlateStage1Entry_within ?_ ?_ (w.descend base)) ?_
      · exact hin
      · exact hctx
      · simp only [WalkState.descend]; omega
    · refine .mono (xlateAfterStage1_within ?_ ?_ _ _ _) ?_
      · exact hin
      · exact hctx
      · omega

theorem xlateSImplicitStep_within (hin : (s.lookupInflight f.id).isSome) (w g : WalkState) :
    (xlateSImplicitStep f ctx w g s).Within f.id (9 + 6 * w.level + g.level) := by
  dsimp only [xlateSImplicitStep]
  split
  · exact xlateFail_within hin _ _ (by omega)
  · split
    · exact xlateFail_within hin _ _ (by omega)
    · next base hpointer =>
      have hpos := level_pos_of_pointer hpointer
      exact .goOn hin (by simp only [Progress.stepsLeft, XlatePhase.stepsLeft, WalkState.descend]; omega)
    · exact .goOn hin (by simp only [Progress.stepsLeft, XlatePhase.stepsLeft]; omega)

theorem xlateGWalkStep_within (hin : (s.lookupInflight f.id).isSome) (w : WalkState) :
    (xlateGWalkStep f ctx w s).Within f.id (3 + w.level) := by
  dsimp only [xlateGWalkStep]
  split
  · exact xlateFail_within hin _ _ (by omega)
  · split
    · exact xlateFail_within hin _ _ (by omega)
    · next base hpointer =>
      have hpos := level_pos_of_pointer hpointer
      exact .goOn hin (by simp only [Progress.stepsLeft, XlatePhase.stepsLeft, WalkState.descend]; omega)
    · refine .mono (xlateFinish_within ?_ _ _ _ _) ?_
      · exact hin
      · omega

theorem msiPteStep_within (hin : (s.lookupInflight f.id).isSome) (gpa ifn data : Word) (size : AccessSize) :
    (msiPteStep f ctx gpa ifn data size s).Within f.id 6 := by
  dsimp only [msiPteStep]
  split
  · exact xlateFail_within hin _ _ (by decide)
  · exact .goOn hin (by decide : 3 ≤ 6)
  · exact .goOn hin (Nat.le_refl 6)

/-- A memory write of a request, and where its two answers lead. -/
theorem memWrite_then_within {a : Word} {bs : List Byte} {fail done : State → State} {n : Nat}
    (hin : (s.lookupInflight f.id).isSome) (hf : ∀ u : State, (u.lookupInflight f.id).isSome → (fail u).Within f.id n)
    (hd : ∀ u : State, (u.lookupInflight f.id).isSome → (done u).Within f.id n) :
    State.Within (match s.memWrite a bs with | (s1, false) => fail s1 | (s1, true) => done s1) f.id n := by
  rcases hm : s.memWrite a bs with ⟨u, ok⟩
  have hu : (u.lookupInflight f.id).isSome := by rwa [(RequestEffect.write (f := f) hm).lookupInflight]
  cases ok
  · exact hf u hu
  · exact hd u hu

theorem msiForwardStep_within (hin : (s.lookupInflight f.id).isSome) (target data : Word) (size : AccessSize) :
    (msiForwardStep f ctx target data size s).Within f.id 2 :=
  memWrite_then_within hin (fun _ hu => xlateFail_within hu _ _ (Nat.le_refl 2)) fun _ hu => .conclude hu _ (by decide)

theorem mrifPendingReadStep_within (hin : (s.lookupInflight f.id).isSome) (pa id m1 : Word) :
    (mrifPendingReadStep f ctx pa id m1 s).Within f.id 5 := by
  dsimp only [mrifPendingReadStep]
  split
  · exact xlateFail_within hin _ _ (by decide)
  · exact .goOn hin (Nat.le_refl 5)

theorem mrifPendingWriteStep_within (hin : (s.lookupInflight f.id).isSome) (pa id m1 pending : Word) :
    (mrifPendingWriteStep f ctx pa id m1 pending s).Within f.id 4 :=
  memWrite_then_within hin (fun _ hu => xlateFail_within hu _ _ (by decide)) fun _ hu => .goOn hu (Nat.le_refl 4)

theorem mrifEnableStep_within (hin : (s.lookupInflight f.id).isSome) (pa id m1 : Word) :
    (mrifEnableStep f ctx pa id m1 s).Within f.id 3 := by
  dsimp only [mrifEnableStep]
  split
  · exact xlateFail_within hin _ _ (by decide)
  · split
    · exact .goOn hin (Nat.le_refl 3)
    · exact .conclude hin _ (by decide)

theorem mrifNoticeStep_within (hin : (s.lookupInflight f.id).isSome) (m1 : Word) :
    (mrifNoticeStep f ctx m1 s).Within f.id 2 :=
  memWrite_then_within hin (fun _ hu => xlateFail_within hu _ _ (Nat.le_refl 2)) fun _ hu => .conclude hu _ (by decide)

theorem xlateMakeRoomStep_within (hin : (s.lookupInflight f.id).isSome) (addr m : Word) (p : Perm) :
    (xlateMakeRoomStep f ctx addr m p s).Within f.id 2 := by
  unfold xlateMakeRoomStep
  split
  · exact .conclude hin _ (by decide)
  · split
    · exact .releaseGenerations (.goOn hin (Nat.le_refl 2))
    · exact .goOn hin (Nat.le_refl 2)

theorem xlateInsertStep_within (hin : (s.lookupInflight f.id).isSome) (addr m : Word) (p : Perm) :
    (xlateInsertStep f ctx addr m p s).Within f.id 1 := by
  dsimp only [xlateInsertStep]
  split <;> exact .conclude hin _ (Nat.le_refl 1)

theorem xlateReportStep_within (hin : (s.lookupInflight f.id).isSome) (cause : Cause) (gpa2 : Word) :
    (xlateReportStep f ctx cause gpa2 s).Within f.id 1 :=
  .conclude (by rwa [(reportTranslation_effect f f.req ctx cause gpa2 s).lookupInflight]) _ (Nat.le_refl 1)

/-- A step of the translation, with a context whose modes are supported. -/
theorem xlateStep_within (hin : (s.lookupInflight f.id).isSome) (hctx : ctx.modesOk s.params = true) (ph : XlatePhase) :
    NextWithin (xlateStep f ctx ph s) f.id (ph.stepsLeft - 1) := by
  cases ph with
  | lookup => exact xlateLookupStep_within hin hctx
  | sWalk w pa => exact (xlateSWalkStep_within hin hctx w pa).mono (by simp only [XlatePhase.stepsLeft]; omega)
  | sImplicit w g => exact .of_next ((xlateSImplicitStep_within hin w g).mono (by simp only [XlatePhase.stepsLeft]; omega))
  | gWalk w => exact .of_next ((xlateGWalkStep_within hin w).mono (by simp only [XlatePhase.stepsLeft]; omega))
  | msiPte gpa ifn data size => exact .of_next (msiPteStep_within hin gpa ifn data size)
  | msiForward target data size => exact .of_next (msiForwardStep_within hin target data size)
  | mrifPendingRead pa id m1 => exact .of_next (mrifPendingReadStep_within hin pa id m1)
  | mrifPendingWrite pa id m1 pending => exact .of_next (mrifPendingWriteStep_within hin pa id m1 pending)
  | mrifEnable pa id m1 => exact .of_next (mrifEnableStep_within hin pa id m1)
  | mrifNotice m1 => exact .of_next (mrifNoticeStep_within hin m1)
  | tlbRoom addr m p => exact .of_next (xlateMakeRoomStep_within hin addr m p)
  | tlbInsert addr m p => exact .of_next (xlateInsertStep_within hin addr m p)
  | report cause gpa2 => exact .of_next (xlateReportStep_within hin cause gpa2)

/-- A step of a sound request without a result is no fault and no refusal, and brings it nearer to its end. -/
theorem requestStep_within (hin : (s.lookupInflight f.id).isSome) (hok : f.ok s.params = true)
    (hend : ∀ r, f.progress ≠ .ending r) : NextWithin (requestStep f s) f.id (f.progress.stepsLeft - 1) := by
  cases hq : f.progress with
  | resolving ph =>
    rw [requestStep_resolving hq]
    exact .of_next (ctxStep_within hin ph)
  | translating ctx ph =>
    rw [requestStep, hq]
    exact xlateStep_within hin ((InFlight.ok_translating hq).1 hok).1 ph
  | ending r => exact absurd hq (hend r)

end

/-! ### Steps of one request alone -/

theorem advance_eq_requestStep {s : State} {id : Nat} {f : InFlight} (h : s.lookupInflight id = some f) :
    advance id s = requestStep f s := by
  rw [advance, h]

theorem runAlone_succ {id : Nat} {s t : State} (h : advance id s = .next t) (n : Nat) :
    runAlone id (n + 1) s = runAlone id n t := by
  rw [runAlone, h]

/-- A sound request ends within the steps it has left; the return of its result is its last output. -/
theorem runAlone_ends {id n : Nat} {s : State} (hinv : s.Inv) (h : s.Within id n) :
    ∃ k t r, k ≤ n ∧ runAlone id k s = .next t ∧ t.lookupInflight id = none ∧ t.trace.head? = some (.result id r) := by
  obtain ⟨q, hq, hle⟩ := h
  induction n generalizing s q with
  | zero => exact absurd hle (Nat.not_le.2 q.stepsLeft_pos)
  | succ n ih =>
    obtain ⟨f, hf, rfl⟩ := Option.map_eq_some_iff.1 hq
    obtain ⟨rfl, -⟩ := State.lookupInflight_some hf
    by_cases hend : ∃ r, f.progress = .ending r
    · obtain ⟨r, hr⟩ := hend
      have hstep : advance f.id s = .next (s.finish f r) := by rw [advance_eq_requestStep hf, requestStep, hr]
      refine ⟨1, s.finish f r, r, by omega, runAlone_succ hstep 0, ?_, rfl⟩
      rw [State.lookupInflight_finish, if_pos rfl]
    · obtain ⟨t, hstep, q', hq', hle'⟩ := requestStep_within (by simp [hf]) (hinv.lookup_ok hf) (not_exists.1 hend)
      rw [← advance_eq_requestStep hf] at hstep
      obtain ⟨k, u, r, hk, hrun, hnone, htrace⟩ := ih (hinv.advance hstep) q' hq' (by omega)
      exact ⟨k + 1, u, r, by omega, (runAlone_succ hstep k).trans hrun, hnone, htrace⟩

/-- Settles O43: a sound request has less than 64 steps left. -/
theorem requestsEndInBoundedSteps : Obligations.RequestsEndInBoundedSteps := by
  intro s f hinv hf
  have hlt := InFlight.stepsLeft_lt (hinv.lookup_ok hf)
  have hwithin : s.Within f.id f.progress.stepsLeft := ⟨f.progress, by rw [State.progressOf, hf]; rfl, Nat.le_refl _⟩
  obtain ⟨n, t, r, hn, hrun, hnone, htrace⟩ := runAlone_ends hinv hwithin
  exact ⟨n, t, r, by omega, hrun, hnone, htrace⟩

end Sys2Proof.Machine

/-! Proofs for 41_translation.md: the ATS check and the IOTLB, pass-through, the checks of a page-table entry and the bits
of a leaf, the steps of both walks and the data path they refine, and what a result and a sound state guarantee. -/

namespace Sys2Proof.Machine

/-! ## A request with a resolved context -/

section
variable {f : InFlight} {ctx : Ctx} {ph : XlatePhase}

theorem requestStep_translating (hf : f.progress = .translating ctx ph) (s : State) :
    requestStep f s = xlateStep f ctx ph s := by
  rw [requestStep, hf]

/-- The events of a request with a resolved context carry its scope tags (R441). -/
theorem State.event_translating (hf : f.progress = .translating ctx ph) (s : State) (e : PerfEvent) :
    s.event f e = s.emit (.event e f.req.devid f.req.pid ctx.gscid ctx.pscid) := by
  rw [State.event, InFlight.tags, hf]

end

/-! ## Bits of a page-table entry's address (R13, R255) -/

/-- A hit's address is the entry's page with the page offset of the request (R255). -/
theorem hitAddr_eq (e : TlbEntry) (iova : Word) : hitAddr e iova = (e.ppn.setWidth 64 <<< 12) ||| (iova &&& 0xFFF) := by
  apply BitVec.eq_of_getLsbD_eq
  intro i hi
  rw [hitAddr, BitVec.getLsbD_append, BitVec.getLsbD_or, BitVec.getLsbD_shiftLeft, BitVec.getLsbD_and,
    show (0xFFF : Word) = lowMask 12 from rfl, getLsbD_lowMask 12 hi]
  by_cases hlow : i < 12
  · simp [hlow]
  · have hpage : i - 12 < 64 := by omega
    simp [hlow, hi, hpage]

theorem getLsbD_pageBase (ppn : BitVec 44) {i : Nat} (hi : i < 64) :
    (pageBase ppn).getLsbD i = (decide (12 ≤ i) && ppn.getLsbD (i - 12)) := by
  have hpage : i - 12 < 64 := by omega
  rw [pageBase, BitVec.getLsbD_shiftLeft, BitVec.getLsbD_setWidth]
  simp only [hi, hpage, decide_true, Bool.true_and]
  rw [← decide_not, decide_eq_decide.2 Nat.not_lt]

theorem getLsbD_ptePpn (pte : Word) (i : Nat) : (ptePpn pte).getLsbD i = (decide (i < 44) && pte.getLsbD (10 + i)) := by
  rw [ptePpn, BitVec.getLsbD_extractLsb']

/-! ## The checks of a page-table entry (R277 to R282) -/

section
variable {kind : ReqKind} {ade : Bool} {w : WalkState} {pte : Word}

/-- The check of the low PPN bits below a level (R280): no one of them is set. -/
theorem ptePpn_and_lowMask_ne_zero_iff (n : Nat) :
    (ptePpn pte).setWidth 64 &&& lowMask n ≠ 0 ↔ ∃ i, i < 44 ∧ i < n ∧ pte.getLsbD (10 + i) = true := by
  rw [and_ne_zero_iff]
  refine exists_congr fun i => ?_
  constructor
  · rintro ⟨hi, hmask, hbit⟩
    rw [getLsbD_lowMask n hi, decide_eq_true_iff] at hmask
    rw [BitVec.getLsbD_setWidth, getLsbD_ptePpn] at hbit
    simp only [Bool.and_eq_true, decide_eq_true_iff] at hbit
    obtain ⟨-, h44, hpte⟩ := hbit
    exact ⟨h44, hmask, hpte⟩
  · rintro ⟨h44, hn, hpte⟩
    have hi : i < 64 := by omega
    refine ⟨hi, by rw [getLsbD_lowMask n hi, decide_eq_true hn], ?_⟩
    rw [BitVec.getLsbD_setWidth, getLsbD_ptePpn, hpte, decide_eq_true hi, decide_eq_true h44]
    rfl

/-- Which kinds lack their permission (R281). -/
theorem permOk_eq_false_iff :
    permOk kind pte = false ↔
      (kind ≠ .ats ∧ kind.isWrite = false ∧ pteR pte = false) ∨ (kind.isWrite = true ∧ pteW pte = false) := by
  cases kind <;> simp [permOk, ReqKind.isWrite]

/-- Which kinds fail the access/dirty check (R282). -/
theorem adOk_eq_false_iff :
    adOk kind ade pte = false ↔
      kind ≠ .ats ∧ ade = false ∧ (pteA pte = false ∨ (kind.isWrite = true ∧ pteD pte = false)) := by
  cases kind <;> simp [adOk, ReqKind.isWrite, ← Bool.not_eq_true, imp_iff_not_or]

/-- An entry that is neither invalid nor a pointer (R277, R278). -/
def IsLeafEntry (pte : Word) : Prop := pteV pte = true ∧ (pteR pte = true ∨ pteW pte = true ∨ pteX pte = true)

/-- An entry that has no permission bit (R278). -/
def IsPointerEntry (pte : Word) : Prop := pteV pte = true ∧ pteR pte = false ∧ pteW pte = false ∧ pteX pte = false

theorem walkEntry_of_invalid (hv : pteV pte = false) : walkEntry kind ade w pte = .bad := by
  simp [walkEntry, hv]

theorem walkEntry_of_pointer (h : IsPointerEntry pte) :
    walkEntry kind ade w pte = if w.level = 0 then .bad else .pointer (pageBase (ptePpn pte)) := by
  obtain ⟨hv, hr, hw, hx⟩ := h
  simp [walkEntry, hv, hr, hw, hx]

theorem walkEntry_of_leaf (h : IsLeafEntry pte) :
    walkEntry kind ade w pte =
      if (pteW pte = true ∧ pteR pte = false) ∨ (ptePpn pte).setWidth 64 &&& lowMask (w.geom.indexBits * w.level) ≠ 0 ∨
          permOk kind pte = false ∨ adOk kind ade pte = false then .bad
      else .leaf ((pageBase (ptePpn pte) &&& ~~~ lowMask w.skip) ||| (w.addr &&& lowMask w.skip)) (lowMask w.skip)
        (leafPerm ade pte) := by
  obtain ⟨hv, hrwx⟩ := h
  have hno : ¬ ((!pteR pte && !pteW pte && !pteX pte) = true) := by
    simpa [imp_iff_not_or, or_assoc] using hrwx
  rw [walkEntry, hv, if_neg (by decide), if_neg hno, ite_or, ite_or, ite_or]
  simp only [Bool.and_eq_true, Bool.not_eq_true']

/-- Every entry is invalid, a pointer or a leaf (R277, R278). -/
theorem entry_cases (pte : Word) : pteV pte = false ∨ IsPointerEntry pte ∨ IsLeafEntry pte := by
  simp only [IsPointerEntry, IsLeafEntry, ← Bool.not_eq_true]
  tauto

theorem walkEntry_eq_bad_iff :
    walkEntry kind ade w pte = .bad ↔
      pteV pte = false ∨
      (pteR pte = false ∧ pteW pte = false ∧ pteX pte = false ∧ w.level = 0) ∨
      ((pteR pte = true ∨ pteW pte = true ∨ pteX pte = true) ∧
        ((pteW pte = true ∧ pteR pte = false) ∨
          (∃ i, i < 44 ∧ i < w.geom.indexBits * w.level ∧ pte.getLsbD (10 + i) = true) ∨
          (kind ≠ .ats ∧ kind.isWrite = false ∧ pteR pte = false) ∨
          (kind.isWrite = true ∧ pteW pte = false) ∨
          (kind ≠ .ats ∧ ade = false ∧ (pteA pte = false ∨ (kind.isWrite = true ∧ pteD pte = false))))) := by
  rcases entry_cases pte with hv | hpointer | hleaf
  · simp [walkEntry_of_invalid hv, hv]
  · rw [walkEntry_of_pointer hpointer]
    obtain ⟨hv, hr, hw, hx⟩ := hpointer
    simp [hv, hr, hw, hx]
  · simp only [walkEntry_of_leaf hleaf, ite_eq_left_iff, reduceCtorEq, imp_false, not_not]
    rw [ptePpn_and_lowMask_ne_zero_iff, permOk_eq_false_iff, adOk_eq_false_iff]
    obtain ⟨hv, hrwx⟩ := hleaf
    have hnot : ¬ (pteR pte = false ∧ pteW pte = false ∧ pteX pte = false ∧ w.level = 0) := by
      rintro ⟨hr, hw, hx, -⟩
      simp [hr, hw, hx] at hrwx
    simp only [hv, hnot, hrwx, Bool.true_eq_false, false_or, true_and, or_assoc]

theorem walkEntry_eq_pointer_iff {base : Word} :
    walkEntry kind ade w pte = .pointer base ↔
      pteV pte = true ∧ pteR pte = false ∧ pteW pte = false ∧ pteX pte = false ∧ w.level ≠ 0 ∧ base = pageBase (ptePpn pte) := by
  rcases entry_cases pte with hv | hpointer | hleaf
  · simp [walkEntry_of_invalid hv, hv]
  · rw [walkEntry_of_pointer hpointer]
    obtain ⟨hv, hr, hw, hx⟩ := hpointer
    by_cases hlevel : w.level = 0 <;> simp [hv, hr, hw, hx, hlevel, eq_comm (a := base)]
  · have hnot : ¬ (pteV pte = true ∧ pteR pte = false ∧ pteW pte = false ∧ pteX pte = false ∧ w.level ≠ 0 ∧
        base = pageBase (ptePpn pte)) := by
      rintro ⟨-, hr, hw, hx, -⟩
      simp [IsLeafEntry, hr, hw, hx] at hleaf
    rw [walkEntry_of_leaf hleaf]
    split_ifs <;> simp [hnot]

end

/-- Settles O36: an entry is invalid, a pointer or a leaf (`entry_cases`), and each has its own checks. -/
theorem entryChecks : Obligations.EntryChecks :=
  fun _ _ _ _ => ⟨walkEntry_eq_bad_iff, fun _ => walkEntry_eq_pointer_iff⟩

/-! ## The leaf (R283) -/

/-- A leaf's address, mask and permission, whatever the checks it has passed. -/
theorem walkEntry_leaf_eq {kind : ReqKind} {ade : Bool} {w : WalkState} {pte out m : Word} {perm : Perm}
    (h : walkEntry kind ade w pte = .leaf out m perm) :
    out = (pageBase (ptePpn pte) &&& ~~~ lowMask w.skip) ||| (w.addr &&& lowMask w.skip) ∧ m = lowMask w.skip ∧
      perm = leafPerm ade pte := by
  unfold walkEntry at h
  split_ifs at h
  cases h
  exact ⟨rfl, rfl, rfl⟩

/-- The low bits of one word under the high bits of another, bit by bit. -/
theorem getLsbD_splice (high low : Word) (n : Nat) {i : Nat} (hi : i < 64) :
    ((high &&& ~~~ lowMask n) ||| (low &&& lowMask n)).getLsbD i = if i < n then low.getLsbD i else high.getLsbD i := by
  rw [BitVec.getLsbD_or, BitVec.getLsbD_and, BitVec.getLsbD_and, BitVec.getLsbD_not, getLsbD_lowMask n hi]
  by_cases hin : i < n <;> simp [hin, hi]

/-- Settles O37: the page offset and the index bits below the level come from the input address, the rest from the PPN. -/
theorem leafResultBits : Obligations.LeafResultBits := by
  intro kind ade w pte out m perm h
  obtain ⟨rfl, rfl, rfl⟩ := walkEntry_leaf_eq h
  refine ⟨fun i hi => ⟨?_, getLsbD_lowMask _ hi⟩, rfl, rfl⟩
  rw [getLsbD_splice _ _ _ hi]
  refine ite_congr rfl (fun _ => rfl) fun hskip => ?_
  have hpage : 12 ≤ i := (Nat.le_add_right ..).trans (Nat.not_lt.1 hskip)
  have hppn : i - 12 < 44 ↔ i < 56 := by omega
  rw [getLsbD_pageBase _ hi, getLsbD_ptePpn, show 10 + (i - 12) = i - 2 by omega, decide_eq_true hpage, Bool.true_and,
    decide_eq_decide.2 hppn]

/-! ## The IOTLB lookup (R254 to R256) -/

/-- The ATS check lets a request of kind `kind` pass (R254). -/
def AtsAllowed (p : Params) (ctx : Ctx) (kind : ReqKind) : Prop :=
  kind = .ats → ctx.tc.getLsbD 1 = true ∧ p.cap.ats = true

/-- No valid entry of the request's page covers it (R255, R256). -/
def State.MissesTlb (s : State) (ctx : Ctx) (r : Request) : Prop :=
  ∀ e, s.tlbEntry ctx.gscid ctx.pscid (r.iova.extractLsb' 12 52) = some e → e.valid = false ∨ e.perm.covers r.kind = false

/-- The request with the current IOTLB generation pinned (R255). -/
def InFlight.pinTlb (f : InFlight) (s : State) : InFlight := { f with tlbGen := some s.iotlb.current.number }

theorem ReqKind.isAts_iff {kind : ReqKind} : kind.isAts = true ↔ kind = .ats := by cases kind <;> simp [ReqKind.isAts]

theorem ReqKind.eq_write_of_isWrite {kind : ReqKind} (h : kind.isWrite = true) : ∃ data size, kind = .write data size := by
  cases kind with
  | write data size => exact ⟨data, size, rfl⟩
  | _ => cases h

section
variable {f : InFlight} {ctx : Ctx} {s : State}

/-- The test of the ATS check in the lookup step. -/
theorem atsCheck_iff {p : Params} {kind : ReqKind} :
    (kind.isAts && (!tcEnAts ctx.tc || !p.cap.ats)) = true ↔ ¬ AtsAllowed p ctx kind := by
  simp [AtsAllowed, ReqKind.isAts_iff, tcEnAts, ← Bool.not_eq_true, imp_iff_not_or]

theorem xlateLookupStep_of_refused (hats : ¬ AtsAllowed s.params ctx f.req.kind) :
    xlateLookupStep f ctx s = .next (s.goOn f (.ending (.fault .transactionTypeDisallowed))) := by
  rw [xlateLookupStep, if_pos (atsCheck_iff.2 hats), State.conclude_eq]

theorem xlateLookupStep_of_hit (hats : AtsAllowed s.params ctx f.req.kind) {e : TlbEntry}
    (hfind : s.tlbEntry ctx.gscid ctx.pscid (f.req.iova.extractLsb' 12 52) = some e) (hvalid : e.valid = true)
    (hcovers : e.perm.covers f.req.kind = true) :
    xlateLookupStep f ctx s = .next (s.goOn (f.pinTlb s) (.ending (.ok (hitAddr e f.req.iova) 0xFFF e.perm))) := by
  rw [xlateLookupStep, if_neg (mt atsCheck_iff.1 (not_not.2 hats)), hfind]
  simp [hvalid, hcovers, InFlight.pinTlb]

theorem xlateLookupStep_of_miss (hats : AtsAllowed s.params ctx f.req.kind) (hmiss : s.MissesTlb ctx f.req) :
    xlateLookupStep f ctx s = xlateMiss (f.pinTlb s) ctx s := by
  rw [xlateLookupStep, if_neg (mt atsCheck_iff.1 (not_not.2 hats))]
  cases hfind : s.tlbEntry ctx.gscid ctx.pscid (f.req.iova.extractLsb' 12 52) with
  | none => rfl
  | some e =>
    have hno : ¬ ((e.valid && e.perm.covers f.req.kind) = true) := by
      rcases hmiss e hfind with h | h <;> simp [h]
    dsimp only
    rw [if_neg hno]
    rfl

/-- A miss sends out one TLB_MISS, and the request, with the generation pinned, goes on. -/
theorem xlateMiss_goesOn_emit {ph : XlatePhase} {t : State} (hf : f.progress = .translating ctx ph)
    (h : xlateMiss f ctx s = .next t) :
    ∃ q, t = (s.emit (.event .tlbMiss f.req.devid f.req.pid ctx.gscid ctx.pscid)).goOn f q := by
  obtain ⟨q, ht, -⟩ := xlateMiss_goesOn h
  rw [State.event_translating hf] at ht
  exact ⟨q, ht⟩

/-- A request that has gone on is the one found under its number. -/
theorem State.lookupInflight_goOn_eq {g : InFlight} {q : Progress} (h : (s.goOn f q).lookupInflight f.id = some g) :
    g = { f with progress := q, latches := [] } := by
  rw [State.lookupInflight_goOn, if_pos rfl] at h
  obtain ⟨_, -, rfl⟩ := Option.map_eq_some_iff.1 h
  rfl

end

/-- Settles O33, by the three ends of the lookup step. -/
theorem atsCheckThenIotlbLookup : Obligations.AtsCheckThenIotlbLookup := by
  intro f ctx s hf
  rw [requestStep_translating hf, xlateStep]
  refine ⟨fun hkind hdisabled => xlateLookupStep_of_refused fun hats => ?refused, fun hats => ⟨?hit, ?miss⟩⟩
  case refused =>
    obtain ⟨hen, hcap⟩ := hats hkind
    rw [hen, hcap] at hdisabled
    simp at hdisabled
  case hit =>
    intro e hfind hvalid hcovers
    rw [← hitAddr_eq]
    exact xlateLookupStep_of_hit hats hfind hvalid hcovers
  case miss =>
    intro hmiss t ht
    rw [xlateLookupStep_of_miss hats hmiss] at ht
    obtain ⟨q, rfl⟩ := xlateMiss_goesOn_emit (f := f.pinTlb s) hf ht
    refine ⟨rfl, rfl, rfl, fun g hg => ?_, rfl⟩
    rw [State.lookupInflight_goOn_eq (f := f.pinTlb s) hg]
    exact ⟨rfl, rfl⟩

/-! ## Pass-through (R258, R260, R323) -/

/-- Where the MSI path starts: at the report of 261 if the interrupt-file number is out of range (R321 to R323). -/
def msiStartPhase (p : Params) (ctx : Ctx) (gpa data : Word) (size : AccessSize) : XlatePhase :=
  if p.msiIfnLimit ≤ (msiIfn ctx gpa).toNat then .report .msiPteLoadFault 0 else .msiPte gpa (msiIfn ctx gpa) data size

theorem msiStart_eq (f : InFlight) (ctx : Ctx) (gpa data : Word) (size : AccessSize) (s : State) :
    msiStart f ctx gpa data size s = s.goOn f (.translating ctx (msiStartPhase s.params ctx gpa data size)) := by
  unfold msiStart msiStartPhase
  split <;> rfl

theorem xlatePassThrough_of_msi {f : InFlight} {ctx : Ctx} {data : Word} {size : AccessSize} {s : State}
    (hkind : f.req.kind = .write data size) (hmsi : msiMatch ctx f.req.iova = true) :
    xlatePassThrough f ctx s = s.goOn f (.translating ctx (msiStartPhase s.params ctx f.req.iova data size)) := by
  rw [xlatePassThrough, hkind]
  dsimp only
  rw [if_pos hmsi, msiStart_eq]

theorem xlatePassThrough_of_not_msi {f : InFlight} {ctx : Ctx} {s : State}
    (hmsi : f.req.kind.isWrite = true → msiMatch ctx f.req.iova = false) :
    xlatePassThrough f ctx s = s.goOn f (.ending (.ok f.req.iova 0xFFF Perm.rw)) := by
  unfold xlatePassThrough
  split
  · next hkind => rw [hmsi (by rw [hkind]; rfl), if_neg (by decide)]; rfl
  all_goals rfl

/-- With both stages Bare a miss is passed through. -/
theorem xlateMiss_of_bare {f : InFlight} {ctx : Ctx} (h1 : modeField ctx.satp = 0) (h2 : modeField ctx.gatp = 0) (s : State) :
    xlateMiss f ctx s = .next (xlatePassThrough f ctx (s.event f .tlbMiss)) := by
  simp [xlateMiss, Ctx.stage1On, Ctx.stage2On, h1, h2]

/-- Settles O34: after the event, the MSI path for a write the filter matches, and the request's own address else. -/
theorem passThrough : Obligations.PassThrough := by
  intro f ctx s hf hin h1 h2 hats hmiss
  have hsome : (s.lookupInflight f.id).isSome := by simp [hin]
  rw [requestStep_translating hf, xlateStep, xlateLookupStep_of_miss hats hmiss, xlateMiss_of_bare h1 h2,
    State.event_translating (f := f.pinTlb s) hf]
  refine ⟨_, rfl, ?_⟩
  by_cases hmsi : ∃ data size, f.req.kind = .write data size ∧ msiMatch ctx f.req.iova = true
  · obtain ⟨data, size, hkind, hmatch⟩ := hmsi
    rw [xlatePassThrough_of_msi (f := f.pinTlb s) hkind hmatch]
    refine ⟨rfl, rfl, rfl, .inl ⟨data, size, hkind, hmatch, ?_⟩⟩
    exact State.progressOf_goOn_self (f := f.pinTlb s) hsome _
  · have hnot (hwrite : f.req.kind.isWrite = true) : msiMatch ctx f.req.iova = false := by
      obtain ⟨data, size, hkind⟩ := ReqKind.eq_write_of_isWrite hwrite
      exact Bool.eq_false_iff.2 fun hmatch => hmsi ⟨data, size, hkind, hmatch⟩
    rw [xlatePassThrough_of_not_msi (f := f.pinTlb s) hnot]
    refine ⟨rfl, rfl, rfl, .inr ⟨hnot, ?_⟩⟩
    exact State.progressOf_goOn_self (f := f.pinTlb s) hsome _

/-! ## The IOTLB insertion (R257, R290) -/

section
variable {f : InFlight} {ctx : Ctx} {addr m : Word} {perm : Perm} {s : State}

theorem xlateMakeRoomStep_of_no_capacity (h : s.params.iotlbCapacity = 0) :
    xlateMakeRoomStep f ctx addr m perm s = s.goOn f (.ending (.ok addr m perm)) := if_pos h

/-- The capacity replacement: a new empty generation, which the request pins (R46). -/
theorem xlateMakeRoomStep_of_full (h : ¬ s.params.iotlbCapacity = 0)
    (hfull : s.params.iotlbCapacity ≤ s.iotlb.current.entries.length) :
    xlateMakeRoomStep f ctx addr m perm s =
      (({ s with iotlb := s.iotlb.replace } : State).goOn { f with tlbGen := some (s.iotlb.current.number + 1) }
        (.translating ctx (.tlbInsert addr m perm))).releaseGenerations := by
  rw [xlateMakeRoomStep, if_neg h, if_pos hfull]
  rfl

theorem xlateMakeRoomStep_of_room (h : ¬ s.params.iotlbCapacity = 0)
    (hroom : ¬ s.params.iotlbCapacity ≤ s.iotlb.current.entries.length) :
    xlateMakeRoomStep f ctx addr m perm s = s.goOn f (.translating ctx (.tlbInsert addr m perm)) := by
  rw [xlateMakeRoomStep, if_neg h, if_neg hroom]

theorem xlateInsertStep_of_current (h : f.tlbGen = some s.iotlb.current.number) :
    xlateInsertStep f ctx addr m perm s =
      (s.insertTlb (tlbEntryOf ctx f.req.iova addr perm)).goOn f (.ending (.ok addr m perm)) := by
  rw [xlateInsertStep, if_pos h]
  rfl

theorem xlateInsertStep_of_replaced (h : f.tlbGen ≠ some s.iotlb.current.number) :
    xlateInsertStep f ctx addr m perm s = s.goOn f (.ending (.ok addr m perm)) := by
  rw [xlateInsertStep, if_neg h]
  rfl

theorem TlbEntry.hasKey_iff {gscid : BitVec 16} {pscid : BitVec 20} {vpn : BitVec 52} {e : TlbEntry} :
    e.hasKey gscid pscid vpn = true ↔ e.gscid = gscid ∧ e.pscid = pscid ∧ e.vpn = vpn := by
  simp [TlbEntry.hasKey, and_assoc]

theorem State.tlbEntry_insertTlb_self (s : State) (e : TlbEntry) :
    (s.insertTlb e).tlbEntry e.gscid e.pscid e.vpn = some e :=
  find?_upsert_self (same := TlbEntry.hasKey e.gscid e.pscid e.vpn) (TlbEntry.hasKey_iff.2 ⟨rfl, rfl, rfl⟩) _

theorem State.tlbEntry_insertTlb_other (s : State) {e : TlbEntry} {gscid : BitVec 16} {pscid : BitVec 20} {vpn : BitVec 52}
    (h : ¬ (gscid = e.gscid ∧ pscid = e.pscid ∧ vpn = e.vpn)) :
    (s.insertTlb e).tlbEntry gscid pscid vpn = s.tlbEntry gscid pscid vpn := by
  have hother (x : TlbEntry) (hx : x.gscid = e.gscid ∧ x.pscid = e.pscid ∧ x.vpn = e.vpn) :
      x.hasKey gscid pscid vpn = false := by
    obtain ⟨hg, hp, hv⟩ := hx
    refine Bool.eq_false_iff.2 fun hkey => h ?_
    obtain ⟨rfl, rfl, rfl⟩ := TlbEntry.hasKey_iff.1 hkey
    exact ⟨hg, hp, hv⟩
  exact find?_upsert_other (hother e ⟨rfl, rfl, rfl⟩) (fun x hx => hother x (TlbEntry.hasKey_iff.1 hx)) _

theorem hitAddr_tlbEntryOf (ctx : Ctx) (iova addr : Word) (perm : Perm) (iova' : Word) :
    hitAddr (tlbEntryOf ctx iova addr perm) iova' = addr.extractLsb' 12 52 ++ iova'.extractLsb' 0 12 := rfl

/-- A lookup for the page of an inserted translation hits (R290). -/
theorem lookup_hits_after_insertTlb {g : InFlight} {q : Progress} {iova : Word} {t : State}
    (ht : t = (s.insertTlb (tlbEntryOf ctx iova addr perm)).goOn f q) (hg : g.progress = .translating ctx .lookup)
    (hpage : g.req.iova.extractLsb' 12 52 = iova.extractLsb' 12 52) (hcovers : perm.covers g.req.kind = true)
    (hats : AtsAllowed s.params ctx g.req.kind) :
    requestStep g t = .next (t.goOn (g.pinTlb t)
      (.ending (.ok (addr.extractLsb' 12 52 ++ g.req.iova.extractLsb' 0 12) 0xFFF perm))) := by
  have hparams : t.params = s.params := by rw [ht]; rfl
  have hfind : t.tlbEntry ctx.gscid ctx.pscid (g.req.iova.extractLsb' 12 52) = some (tlbEntryOf ctx iova addr perm) := by
    rw [ht, hpage]
    exact s.tlbEntry_insertTlb_self (tlbEntryOf ctx iova addr perm)
  rw [requestStep_translating hg, xlateStep, xlateLookupStep_of_hit (hparams ▸ hats) hfind rfl hcovers, hitAddr_tlbEntryOf]
  rfl

end

/-- Settles O40: the three cases of the capacity replacement, then the two of the insertion with the lookup after it. -/
theorem cachedTranslationEqualsWalk : Obligations.CachedTranslationEqualsWalk := by
  intro f g ctx addr m perm s
  refine ⟨fun hf hin => ?room, fun hf => ⟨fun hgen => ?lost, fun hgen => ?inserted⟩⟩
  case room =>
    have hsome : (s.lookupInflight f.id).isSome := by simp [hin]
    rw [requestStep_translating hf, xlateStep]
    by_cases hcap : s.params.iotlbCapacity = 0
    · rw [xlateMakeRoomStep_of_no_capacity hcap]
      refine ⟨_, _, rfl, State.lookupInflight_goOn_self hsome _, rfl, rfl, rfl, rfl, ?_⟩
      rw [if_pos hcap]
      exact ⟨rfl, rfl⟩
    · by_cases hfull : s.params.iotlbCapacity ≤ s.iotlb.current.entries.length
      · rw [xlateMakeRoomStep_of_full hcap hfull]
        refine ⟨_, _, rfl, State.lookupInflight_goOn_self (s := { s with iotlb := _ })
          (f := { f with tlbGen := some (s.iotlb.current.number + 1) }) hsome _, rfl, rfl, rfl, rfl, ?_⟩
        rw [if_neg hcap, if_pos hfull]
        exact ⟨rfl, rfl, rfl⟩
      · rw [xlateMakeRoomStep_of_room hcap hfull]
        refine ⟨_, _, rfl, State.lookupInflight_goOn_self hsome _, rfl, rfl, rfl, rfl, ?_⟩
        rw [if_neg hcap, if_neg hfull]
        exact ⟨rfl, rfl, rfl⟩
  case lost =>
    rw [requestStep_translating hf, xlateStep, xlateInsertStep_of_replaced hgen]
  case inserted =>
    rw [requestStep_translating hf, xlateStep, xlateInsertStep_of_current hgen]
    refine ⟨_, rfl, rfl, rfl, fun hin => ?_, rfl, rfl, fun a b v hkey => s.tlbEntry_insertTlb_other hkey,
      fun hg hpage hcovers hats => lookup_hits_after_insertTlb rfl hg hpage hcovers hats⟩
    exact State.progressOf_goOn_self (s := s.insertTlb _) (Option.isSome_of_eq_some hin) _

/-! ## One entry of a walk (R273 to R285, R440) -/

/-- The state after the event and the read of a page-table entry of `n` bytes at `a` (R273, R440). -/
def State.readEntry (s : State) (f : InFlight) (ctx : Ctx) (e : PerfEvent) (a : Word) (n : Nat) : State :=
  (s.emit (.event e f.req.devid f.req.pid ctx.gscid ctx.pscid)).emit (.access .read a n (s.readWord a n).isSome)

/-- A request whose walk has failed with `e` (R264). -/
def failedAt (ctx : Ctx) (e : WalkError) : Progress := .translating ctx (.report e.1 e.2)

/-- A request whose walks have succeeded (R262, R263): a guest-physical address that passes the MSI test is not cached. -/
def translatedTo (ctx : Ctx) (gpa spa m : Word) (p : Perm) : Progress :=
  if msiMatch ctx gpa = true then .ending (.ok spa m p) else .translating ctx (.tlbRoom spa m p)

theorem xlateFinish_eq (f : InFlight) (ctx : Ctx) (gpa spa m : Word) (p : Perm) (s : State) :
    xlateFinish f ctx gpa spa m p s = s.goOn f (translatedTo ctx gpa spa m p) := by
  unfold xlateFinish translatedTo
  split <;> rfl

/-- The page fault of the stage-2 walk `w` (R284, R285). -/
def guestPageFault (kind : ReqKind) (w : WalkState) : WalkError := (pageFault .g kind, w.addr)

/-- The two stage-2 walks: the implicit one, for the address of the next entry of the stage-1 walk `u`, and the one of the
data path. -/
inductive Stage2Use where
  | implicit (u : WalkState)
  | dataPath

namespace Stage2Use

/-- The phase in which the walk `w` reads its next entry. -/
def phase : Stage2Use → WalkState → XlatePhase
  | .implicit u, w => .sImplicit u w
  | .dataPath, w => .gWalk w

/-- The kind of request that the entries are checked for (R276). -/
def check (kind : ReqKind) : Stage2Use → ReqKind
  | .implicit _ => .read
  | .dataPath => kind

/-- Where a leaf leads. -/
def leafEnd (ctx : Ctx) (w : WalkState) : Stage2Use → Word × Word × Perm → Progress
  | .implicit u, (out, _, _) => .translating ctx (.sWalk u out)
  | .dataPath, (out, m, p) => translatedTo ctx w.addr out (w.mask &&& m) (w.perm.inter p)

/-- Where the next entry of the walk `w` leads, the read of that entry having given `r`. -/
def afterEntry (use : Stage2Use) (kind : ReqKind) (ctx : Ctx) (w : WalkState) (r : Except WalkError Word) : Progress :=
  match r with
  | .error e => failedAt ctx e
  | .ok pte =>
    match walkEntry (use.check kind) (tcGade ctx.tc) w pte with
    | .bad => failedAt ctx (guestPageFault kind w)
    | .pointer base => .translating ctx (use.phase (w.descend base))
    | .leaf out m p => use.leafEnd ctx w (out, m, p)

section
variable {use : Stage2Use} {kind : ReqKind} {ctx : Ctx} {w : WalkState} {pte : Word}

theorem afterEntry_of_bad (h : walkEntry (use.check kind) (tcGade ctx.tc) w pte = .bad) :
    use.afterEntry kind ctx w (.ok pte) = failedAt ctx (guestPageFault kind w) := by
  simp only [afterEntry, h]

theorem afterEntry_of_pointer {base : Word} (h : walkEntry (use.check kind) (tcGade ctx.tc) w pte = .pointer base) :
    use.afterEntry kind ctx w (.ok pte) = .translating ctx (use.phase (w.descend base)) := by
  simp only [afterEntry, h]

theorem afterEntry_of_leaf {out m : Word} {p : Perm} (h : walkEntry (use.check kind) (tcGade ctx.tc) w pte = .leaf out m p) :
    use.afterEntry kind ctx w (.ok pte) = use.leafEnd ctx w (out, m, p) := by
  simp only [afterEntry, h]

end

end Stage2Use

section
variable {f : InFlight} {ctx : Ctx} {w : WalkState} {s : State}

theorem readPte_of_none {kind : ReqKind} {n : Nat} {pa : Word} (h : s.readWord pa n = none) :
    readPte s kind n pa = .error (accessFault kind, 0) := by
  rw [readPte, h]

theorem readPte_of_some {kind : ReqKind} {n : Nat} {pa pte : Word} (h : s.readWord pa n = some pte) :
    readPte s kind n pa = .ok pte := by
  rw [readPte, h]

/-- One entry of a stage-2 walk is one step. -/
theorem requestStep_stage2 {use : Stage2Use} (hf : f.progress = .translating ctx (use.phase w)) (s : State) :
    requestStep f s = .next ((s.readEntry f ctx .gWalk w.entryAddr w.geom.pteBytes).goOn f
      (use.afterEntry f.req.kind ctx w (readPte s f.req.kind w.geom.pteBytes w.entryAddr))) := by
  rw [requestStep_translating hf]
  cases use with
  | implicit u =>
    rw [Stage2Use.phase, xlateStep, xlateSImplicitStep, State.event_translating hf, State.readEntry, readPte]
    cases s.readWord w.entryAddr w.geom.pteBytes with
    | none => rfl
    | some pte =>
      dsimp only [Stage2Use.afterEntry, Stage2Use.check]
      cases walkEntry .read (tcGade ctx.tc) w pte <;> rfl
  | dataPath =>
    rw [Stage2Use.phase, xlateStep, xlateGWalkStep, State.event_translating hf, State.readEntry, readPte]
    cases s.readWord w.entryAddr w.geom.pteBytes with
    | none => rfl
    | some pte =>
      dsimp only [Stage2Use.afterEntry, Stage2Use.check]
      cases walkEntry f.req.kind (tcGade ctx.tc) w pte with
      | bad => rfl
      | pointer base => rfl
      | leaf out m p => exact congrArg _ (xlateFinish_eq f ctx w.addr out (w.mask &&& m) (w.perm.inter p) _)

/-! ### Stage 1 -/

variable {pa : Word}

theorem requestStep_sWalk_of_none (hf : f.progress = .translating ctx (.sWalk w pa))
    (hread : s.readWord pa w.geom.pteBytes = none) :
    requestStep f s = .next ((s.readEntry f ctx .sWalk pa w.geom.pteBytes).goOn f (failedAt ctx (accessFault f.req.kind, 0))) := by
  rw [requestStep_translating hf, xlateStep, xlateSWalkStep, State.event_translating hf, State.readEntry, hread]
  rfl

section
variable {pte : Word}

theorem requestStep_sWalk_of_bad (hf : f.progress = .translating ctx (.sWalk w pa))
    (hread : s.readWord pa w.geom.pteBytes = some pte) (hentry : walkEntry f.req.kind (tcSade ctx.tc) w pte = .bad) :
    requestStep f s = .next ((s.readEntry f ctx .sWalk pa w.geom.pteBytes).goOn f
      (failedAt ctx (pageFault .s f.req.kind, 0))) := by
  rw [requestStep_translating hf, xlateStep, xlateSWalkStep, State.event_translating hf, State.readEntry, hread]
  simp only [hentry]
  rfl

theorem requestStep_sWalk_of_pointer (hf : f.progress = .translating ctx (.sWalk w pa))
    (hread : s.readWord pa w.geom.pteBytes = some pte) {base : Word}
    (hentry : walkEntry f.req.kind (tcSade ctx.tc) w pte = .pointer base) :
    requestStep f s = xlateStage1Entry f ctx (w.descend base) (s.readEntry f ctx .sWalk pa w.geom.pteBytes) := by
  rw [requestStep_translating hf, xlateStep, xlateSWalkStep, State.event_translating hf, State.readEntry, hread]
  simp only [hentry]
  rfl

theorem requestStep_sWalk_of_leaf (hf : f.progress = .translating ctx (.sWalk w pa))
    (hread : s.readWord pa w.geom.pteBytes = some pte) {out m : Word} {p : Perm}
    (hentry : walkEntry f.req.kind (tcSade ctx.tc) w pte = .leaf out m p) :
    requestStep f s = xlateAfterStage1 f ctx out (w.mask &&& m) (w.perm.inter p)
      (s.readEntry f ctx .sWalk pa w.geom.pteBytes) := by
  rw [requestStep_translating hf, xlateStep, xlateSWalkStep, State.event_translating hf, State.readEntry, hread]
  simp only [hentry]
  rfl

end

theorem xlateStage1Entry_of_bare {f : InFlight} {ctx : Ctx} {s : State} (h : modeField ctx.gatp = 0) (w : WalkState) :
    xlateStage1Entry f ctx w s = .next (s.goOn f (.translating ctx (.sWalk w w.entryAddr))) := by
  simp [xlateStage1Entry, Ctx.stage2On, h]

theorem GoesOn.trace {t : State} {H : Prop} (h : GoesOn f s t H) : t.trace = s.trace := by
  obtain ⟨q, rfl, -⟩ := h
  rfl

/-- The step of a stage-1 entry sends out its event and its read, and nothing else. -/
theorem requestStep_sWalk_trace (hf : f.progress = .translating ctx (.sWalk w pa)) {t : State}
    (h : requestStep f s = .next t) : t.trace = (s.readEntry f ctx .sWalk pa w.geom.pteBytes).trace := by
  cases hread : s.readWord pa w.geom.pteBytes with
  | none => rw [requestStep_sWalk_of_none hf hread] at h; cases h; rfl
  | some pte =>
    cases hentry : walkEntry f.req.kind (tcSade ctx.tc) w pte with
    | bad => rw [requestStep_sWalk_of_bad hf hread hentry] at h; cases h; rfl
    | pointer base =>
      rw [requestStep_sWalk_of_pointer hf hread hentry] at h
      exact (xlateStage1Entry_goesOn h).trace
    | leaf out m p =>
      rw [requestStep_sWalk_of_leaf hf hread hentry] at h
      exact (xlateAfterStage1_goesOn h).trace

end

/-- Settles O38: the entries of the two stage-2 walks by `requestStep_stage2`, those of stage 1 by their read and checks. -/
theorem implicitWalkChecksAsRead : Obligations.ImplicitWalkChecksAsRead := by
  intro f ctx w s read
  refine ⟨fun u hf => ?implicit, fun hf => ?dataPath, fun pa hf =>
    ⟨fun t => requestStep_sWalk_trace hf, fun hread => requestStep_sWalk_of_none hf hread, fun pte hread => ?entry⟩⟩
  case implicit =>
    rw [requestStep_stage2 (use := .implicit u) hf, readPte]
    refine congrArg (fun q => Host.Outcome.next (State.goOn _ f q)) ?_
    cases s.readWord w.entryAddr w.geom.pteBytes with
    | none => rfl
    | some pte =>
      dsimp only [Stage2Use.afterEntry, Stage2Use.check, tcGade]
      cases walkEntry .read (ctx.tc.getLsbD 7) w pte <;> rfl
  case dataPath =>
    rw [requestStep_stage2 (use := .dataPath) hf, readPte]
    refine congrArg (fun q => Host.Outcome.next (State.goOn _ f q)) ?_
    cases s.readWord w.entryAddr w.geom.pteBytes with
    | none => rfl
    | some pte =>
      dsimp only [Stage2Use.afterEntry, Stage2Use.check, tcGade]
      cases walkEntry f.req.kind (ctx.tc.getLsbD 7) w pte <;> rfl
  case entry =>
    split
    · next hentry => exact requestStep_sWalk_of_bad hf hread hentry
    · next hentry =>
      have hstep := requestStep_sWalk_of_pointer hf hread hentry
      exact ⟨hstep, fun hbare => hstep.trans (xlateStage1Entry_of_bare hbare _)⟩
    · next hentry => exact requestStep_sWalk_of_leaf hf hread hentry

/-! ## One request moving alone

The walk procedures are functions of memory, of which reads fail and of the parameters. `SameTables` says that a state has
these, and the current generations, as another one; `ArrivesIn` says that a request alone comes to a place with them as they
were where it started. -/

/-- What the walks read, and the current cache generations, are the same in `t` as in `s`. -/
structure SameTables (s t : State) : Prop where
  params : t.params = s.params
  failing : t.failing = s.failing
  mem : t.mem = s.mem
  ctxCurrent : t.ctxCache.current = s.ctxCache.current
  tlbCurrent : t.iotlb.current = s.iotlb.current

namespace SameTables

variable {s t : State}

theorem refl (s : State) : SameTables s s := ⟨rfl, rfl, rfl, rfl, rfl⟩

theorem readWord (h : SameTables s t) (a : Word) (n : Nat) : t.readWord a n = s.readWord a n := by
  rw [State.readWord, State.readWord, h.failing, h.mem]

theorem readPte (h : SameTables s t) (kind : ReqKind) (n : Nat) (pa : Word) : readPte t kind n pa = readPte s kind n pa := by
  rw [Machine.readPte, Machine.readPte, h.readWord]

end SameTables

/-- In `s` the request numbered `id` is in flight and asks `r`, as `f` does; the tables are those of `s₀`. -/
structure Underway (s₀ : State) (id : Nat) (r : Request) (s : State) (f : InFlight) : Prop where
  tables : SameTables s₀ s
  inflight : (s.lookupInflight id).isSome
  id_eq : f.id = id
  req_eq : f.req = r

/-- Alone, in at most `n` steps from `s`, the request numbered `id` comes to a progress of which `P` holds; it still asks
`r`, and the tables are those of `s₀`. -/
def ArrivesIn (s₀ : State) (id : Nat) (r : Request) (n : Nat) (s : State) (P : Progress → Prop) : Prop :=
  ∃ k t g, k ≤ n ∧ runAlone id k s = .next t ∧ Underway s₀ id r t g ∧ t.lookupInflight id = some g ∧ P g.progress

/-- The same from the state of an outcome, in some number of steps. -/
def OutcomeArrives (s₀ : State) (id : Nat) (r : Request) (o : Host.Outcome State Fault Refusal) (P : Progress → Prop) : Prop :=
  ∃ t n, o = .next t ∧ ArrivesIn s₀ id r n t P

theorem runAlone_add {id k j : Nat} {s t : State} (h : runAlone id k s = .next t) :
    runAlone id (k + j) s = runAlone id j t := by
  induction k generalizing s with
  | zero => cases h; rw [Nat.zero_add]
  | succ k ih =>
    rw [Nat.add_right_comm]
    rw [runAlone] at h
    split at h
    · next u hu => rw [runAlone_succ hu]; exact ih h
    · cases h
    · cases h

section
variable {s₀ s t : State} {f : InFlight} {id n m : Nat} {r : Request} {P Q : Progress → Prop} {q : Progress}
  {o : Host.Outcome State Fault Refusal}

theorem Underway.start (hin : s.lookupInflight f.id = some f) : Underway s f.id f.req s f :=
  ⟨.refl s, Option.isSome_of_eq_some hin, rfl, rfl⟩

theorem Underway.emit (h : Underway s₀ id r s f) (out : Output) : Underway s₀ id r (s.emit out) f :=
  ⟨⟨h.tables.params, h.tables.failing, h.tables.mem, h.tables.ctxCurrent, h.tables.tlbCurrent⟩, h.inflight, h.id_eq, h.req_eq⟩

theorem Underway.event (h : Underway s₀ id r s f) (e : PerfEvent) : Underway s₀ id r (s.event f e) f := h.emit _

theorem Underway.readEntry (h : Underway s₀ id r s f) (ctx : Ctx) (e : PerfEvent) (a : Word) (k : Nat) :
    Underway s₀ id r (s.readEntry f ctx e a k) f := (h.emit _).emit _

theorem Underway.lookup_goOn (h : Underway s₀ id r s f) (q : Progress) :
    (s.goOn f q).lookupInflight id = some { f with progress := q, latches := [] } := by
  obtain rfl := h.id_eq
  exact State.lookupInflight_goOn_self h.inflight q

theorem Underway.goOn (h : Underway s₀ id r s f) (q : Progress) :
    Underway s₀ id r (s.goOn f q) { f with progress := q, latches := [] } :=
  ⟨⟨h.tables.params, h.tables.failing, h.tables.mem, h.tables.ctxCurrent, h.tables.tlbCurrent⟩,
    Option.isSome_of_eq_some (h.lookup_goOn q), h.id_eq, h.req_eq⟩

/-- A request that is already there. -/
theorem ArrivesIn.here (h : Underway s₀ id r s f) (hin : s.lookupInflight id = some f) (hP : P f.progress) (n : Nat) :
    ArrivesIn s₀ id r n s P :=
  ⟨0, s, f, Nat.zero_le n, rfl, h, hin, hP⟩

theorem ArrivesIn.goOn (h : Underway s₀ id r s f) (hP : P q) (n : Nat) : ArrivesIn s₀ id r n (s.goOn f q) P :=
  .here (h.goOn q) (h.lookup_goOn q) hP n

/-- A first step, then the rest. -/
theorem ArrivesIn.step (hin : s.lookupInflight id = some f) (hstep : requestStep f s = .next t)
    (h : ArrivesIn s₀ id r n t P) : ArrivesIn s₀ id r (n + 1) s P := by
  obtain ⟨k, u, g, hk, hrun, hg, hlookup, hP⟩ := h
  rw [← advance_eq_requestStep hin] at hstep
  exact ⟨k + 1, u, g, Nat.succ_le_succ hk, (runAlone_succ hstep k).trans hrun, hg, hlookup, hP⟩

theorem OutcomeArrives.goOn (h : Underway s₀ id r s f) (hP : P q) : OutcomeArrives s₀ id r (.next (s.goOn f q)) P :=
  ⟨_, 0, rfl, .goOn h hP 0⟩

theorem OutcomeArrives.mono (h : OutcomeArrives s₀ id r o P) (hPQ : ∀ q, P q → Q q) : OutcomeArrives s₀ id r o Q := by
  obtain ⟨t, n, ho, k, u, g, hk, hrun, hg, hin, hP⟩ := h
  exact ⟨t, n, ho, k, u, g, hk, hrun, hg, hin, hPQ _ hP⟩

/-- From where a request arrives, it may step on. -/
theorem OutcomeArrives.trans (h : OutcomeArrives s₀ id r o P)
    (hnext : ∀ t g, Underway s₀ id r t g → t.lookupInflight id = some g → P g.progress → ∃ m, ArrivesIn s₀ id r m t Q) :
    OutcomeArrives s₀ id r o Q := by
  obtain ⟨u, n, ho, k, t, g, -, hrun, hg, hin, hP⟩ := h
  obtain ⟨m, j, v, g', -, hrun', hg', hin', hQ⟩ := hnext t g hg hin hP
  exact ⟨u, k + j, ho, k + j, v, g', Nat.le_refl _, (runAlone_add hrun).trans hrun', hg', hin', hQ⟩

theorem OutcomeArrives.of_requestStep (hin : s.lookupInflight id = some f)
    (h : OutcomeArrives s₀ id r (requestStep f s) P) : ∃ n, ArrivesIn s₀ id r n s P := by
  obtain ⟨t, n, hstep, ht⟩ := h
  exact ⟨n + 1, .step hin hstep ht⟩

end

/-! ## The stage-2 walk (R261, R270, R276) -/

/-- Where a stage-2 walk that stands at `w` leads, by its result. -/
def Stage2Use.walkEnd (use : Stage2Use) (ctx : Ctx) (w : WalkState) : Except WalkError (Word × Word × Perm) → Progress
  | .error e => failedAt ctx e
  | .ok leaf => use.leafEnd ctx w leaf

section
variable {read : Word → Except WalkError Word} {kind : ReqKind} {ade : Bool} {bad : WalkError} {fuel : Nat} {w : WalkState}

/-! ### The walk procedure by its first entry (R270) -/

theorem walkStage_of_error {e : WalkError} (hread : read w.entryAddr = .error e) :
    walkStage read kind ade bad (fuel + 1) w = .error e := by
  rw [walkStage, hread]

variable {pte : Word}

theorem walkStage_of_bad (hread : read w.entryAddr = .ok pte) (hentry : walkEntry kind ade w pte = .bad) :
    walkStage read kind ade bad (fuel + 1) w = .error bad := by
  simp only [walkStage, hread, hentry]

theorem walkStage_of_pointer (hread : read w.entryAddr = .ok pte) {base : Word}
    (hentry : walkEntry kind ade w pte = .pointer base) :
    walkStage read kind ade bad (fuel + 1) w = walkStage read kind ade bad fuel (w.descend base) := by
  simp only [walkStage, hread, hentry]

theorem walkStage_of_leaf (hread : read w.entryAddr = .ok pte) {out m : Word} {p : Perm}
    (hentry : walkEntry kind ade w pte = .leaf out m p) :
    walkStage read kind ade bad (fuel + 1) w = .ok (out, m, p) := by
  simp only [walkStage, hread, hentry]

/-- The mask and the permission gathered so far have no part in a walk. -/
theorem walkStage_gathered (m : Word) (p : Perm) :
    walkStage read kind ade bad fuel { w with mask := m, perm := p } = walkStage read kind ade bad fuel w := by
  induction fuel generalizing w with
  | zero => rfl
  | succ fuel ih =>
    have haddr : WalkState.entryAddr { w with mask := m, perm := p } = w.entryAddr := rfl
    cases hread : read w.entryAddr with
    | error e => rw [walkStage_of_error (haddr ▸ hread), walkStage_of_error hread]
    | ok pte =>
      have hread' : read (WalkState.entryAddr { w with mask := m, perm := p }) = .ok pte := hread
      cases hentry : walkEntry kind ade w pte with
      | bad => rw [walkStage_of_bad hread hentry, walkStage_of_bad hread' hentry]
      | pointer base =>
        rw [walkStage_of_pointer hread hentry, walkStage_of_pointer hread' hentry]
        exact ih (w := w.descend base)
      | leaf out m' p' => rw [walkStage_of_leaf hread hentry, walkStage_of_leaf hread' hentry]

end

section
variable {s₀ s : State} {f : InFlight} {id n : Nat} {r : Request} {ctx : Ctx} {w : WalkState} {use : Stage2Use}

/-- The result of a stage-2 walk of a request of kind `kind`, from the level `w` stands at. -/
def Stage2Use.result (use : Stage2Use) (s : State) (kind : ReqKind) (ctx : Ctx) (w : WalkState) :
    Except WalkError (Word × Word × Perm) :=
  walkStage (readPte s kind w.geom.pteBytes) (use.check kind) (tcGade ctx.tc) (guestPageFault kind w) (w.level + 1) w

theorem Stage2Use.result_of_pointer {kind : ReqKind} {pte base : Word}
    (hread : readPte s kind w.geom.pteBytes w.entryAddr = .ok pte)
    (hentry : walkEntry (use.check kind) (tcGade ctx.tc) w pte = .pointer base) :
    use.result s kind ctx w = use.result s kind ctx (w.descend base) := by
  have hfuel : (w.descend base).level + 1 = w.level := Nat.sub_add_cancel (level_pos_of_pointer hentry)
  rw [Stage2Use.result, walkStage_of_pointer hread hentry, Stage2Use.result, hfuel]
  rfl

theorem Stage2Use.walkEnd_descend (base : Word) (res : Except WalkError (Word × Word × Perm)) :
    use.walkEnd ctx (w.descend base) res = use.walkEnd ctx w res := by
  cases use <;> rfl

/-- A request in a stage-2 walk comes, in at most one step a level, to where the result of the walk leads. -/
theorem stage2_arrivesIn (h : Underway s₀ id r s f) (hin : s.lookupInflight id = some f)
    (hf : f.progress = .translating ctx (use.phase w)) :
    ArrivesIn s₀ id r (w.level + 1) s (· = use.walkEnd ctx w (use.result s₀ r.kind ctx w)) := by
  induction hlevel : w.level using Nat.strong_induction_on generalizing w s f with
  | _ level ih =>
    have hstep := requestStep_stage2 hf s
    rw [h.req_eq, h.tables.readPte] at hstep
    have hnext := h.readEntry ctx .gWalk w.entryAddr w.geom.pteBytes
    refine .step hin hstep ?_
    cases hread : readPte s₀ r.kind w.geom.pteBytes w.entryAddr with
    | error e => exact .goOn hnext (by rw [Stage2Use.result, walkStage_of_error hread]; rfl) _
    | ok pte =>
      cases hentry : walkEntry (use.check r.kind) (tcGade ctx.tc) w pte with
      | bad =>
        rw [Stage2Use.afterEntry_of_bad hentry]
        exact .goOn hnext (by rw [Stage2Use.result, walkStage_of_bad hread hentry]; rfl) _
      | leaf out m p =>
        rw [Stage2Use.afterEntry_of_leaf hentry]
        exact .goOn hnext (by rw [Stage2Use.result, walkStage_of_leaf hread hentry]; rfl) _
      | pointer base =>
        rw [Stage2Use.afterEntry_of_pointer hentry]
        have hfuel : (w.descend base).level + 1 = level :=
          (Nat.sub_add_cancel (level_pos_of_pointer hentry)).trans hlevel
        have hrest := ih (w.descend base).level (by omega) (hnext.goOn _) (hnext.lookup_goOn _) rfl rfl
        rwa [hfuel, Stage2Use.walkEnd_descend, ← Stage2Use.result_of_pointer hread hentry] at hrest

end

/-- Settles O41: the stage-2 walk of the data path. -/
theorem stage2StepsAreTheWalk : Obligations.Stage2StepsAreTheWalk := by
  intro f ctx w s hin hf
  obtain ⟨n, t, g, hn, hrun, hg, hlookup, hend⟩ := stage2_arrivesIn (use := .dataPath) (.start hin) hin hf
  have hprogress : t.progressOf f.id = some g.progress := by rw [State.progressOf, hlookup]; rfl
  refine ⟨n, t, hn, hrun, hg.tables.mem, hg.tables.ctxCurrent, hg.tables.tlbCurrent, ?_⟩
  rw [hprogress, hend]
  split
  · next e hresult =>
    have hwalk : Stage2Use.dataPath.result s f.req.kind ctx w = .error e := hresult
    rw [hwalk]
    rfl
  · next out m p hresult =>
    have hwalk : Stage2Use.dataPath.result s f.req.kind ctx w = .ok (out, m, p) := hresult
    rw [hwalk]
    split
    · next hmsi => exact congrArg some (if_pos hmsi)
    · next hmsi => exact congrArg some (if_neg hmsi)

/-! ## The data path (R258 to R264) -/

/-- The progress of a request whose data path has ended so (R260, R262 to R264). -/
def PathEnd.IsAt (p : Params) (ctx : Ctx) (kind : ReqKind) : PathEnd → Progress → Prop
  | .failed e, q => q = failedAt ctx e
  | .msi gpa, q => ∃ data size, kind = .write data size ∧ q = .translating ctx (msiStartPhase p ctx gpa data size)
  | .translated gpa spa m perm, q => q = translatedTo ctx gpa spa m perm

/-- The end of the data path after the stage-2 walk from `gpa`, by its result (R261, R262). -/
def afterStage2 (gpa m : Word) (p : Perm) : Except WalkError (Word × Word × Perm) → PathEnd
  | .error e => .failed e
  | .ok (spa, m2, p2) => .translated gpa spa (m &&& m2) (p.inter p2)

/-- Stage 2 of the data path, without the MSI test before it. -/
def stage2Path (s : State) (ctx : Ctx) (kind : ReqKind) (gpa m : Word) (p : Perm) : PathEnd :=
  if ctx.stage2On then afterStage2 gpa m p (stage2Walk s ctx kind kind gpa) else .translated gpa gpa m p

theorem dataPath2_eq (s : State) (ctx : Ctx) (kind : ReqKind) (gpa m : Word) (p : Perm) :
    dataPath2 s ctx kind gpa m p =
      if kind.isWrite = true ∧ msiMatch ctx gpa = true then .msi gpa else stage2Path s ctx kind gpa m p := by
  simp only [dataPath2, stage2Path, Bool.and_eq_true]
  cases stage2Walk s ctx kind kind gpa <;> rfl

/-- The end of the data path after the stage-1 walk (R259 to R262). -/
def afterStage1 (s : State) (ctx : Ctx) (kind : ReqKind) : Except WalkError (Word × Word × Perm) → PathEnd
  | .error e => .failed e
  | .ok (gpa, m, p) => dataPath2 s ctx kind gpa m p

theorem dataPath_eq (s : State) (ctx : Ctx) (kind : ReqKind) (iova : Word) :
    dataPath s ctx kind iova =
      if ctx.stage1On then afterStage1 s ctx kind (stage1Walk s ctx kind iova)
      else dataPath2 s ctx kind iova (lowMask 64) Perm.rw := by
  rw [dataPath]
  cases stage1Walk s ctx kind iova <;> rfl

section
variable {s₀ s : State} {f : InFlight} {id n : Nat} {r : Request} {ctx : Ctx} {w : WalkState} {geom : Geometry}

theorem gGeometry_levels_pos {cap : Cap} {gxl : Bool} {mode : BitVec 4} {g : Geometry}
    (h : gGeometry cap gxl mode = some g) : 0 < g.levels := by
  unfold gGeometry at h
  split_ifs at h <;> cases h <;> decide

theorem sGeometry_levels_pos {cap : Cap} {sxl : Bool} {mode : BitVec 4} {g : Geometry}
    (h : sGeometry cap sxl mode = some g) : 0 < g.levels := by
  unfold sGeometry at h
  split_ifs at h <;> cases h <;> decide

/-! ### Stage 2 -/

theorem stage2Walk_of_out_of_range {kind check : ReqKind} {a : Word}
    (hgeom : gGeometry s.params.cap s.params.gxl (modeField ctx.gatp) = some geom) (hrange : ¬ rangeOk .g geom.width a = true) :
    stage2Walk s ctx kind check a = .error (pageFault .g kind, a) := by
  rw [stage2Walk, hgeom]
  exact if_neg hrange

/-- The walk of an address in range, whatever mask and permission have been gathered before it. -/
theorem stage2Walk_of_in_range {use : Stage2Use} {kind : ReqKind} {a : Word}
    (hgeom : gGeometry s.params.cap s.params.gxl (modeField ctx.gatp) = some geom) (hrange : rangeOk .g geom.width a = true)
    (m : Word) (p : Perm) :
    stage2Walk s ctx kind (use.check kind) a =
      use.result s kind ctx (startWalk .g geom (ppnField ctx.gatp) a m p) := by
  have hfuel : (startWalk .g geom (ppnField ctx.gatp) a m p).level + 1 = geom.levels :=
    Nat.sub_add_cancel (gGeometry_levels_pos hgeom)
  rw [stage2Walk, hgeom, Stage2Use.result, hfuel]
  exact (if_pos hrange).trans (walkStage_gathered (w := startWalk .g geom (ppnField ctx.gatp) a m p) (lowMask 64) Perm.rw)

/-- A stage-2 walk from its root comes to where its result leads. -/
theorem startStage2_arrives {use : Stage2Use} (h : Underway s₀ id r s f) (w : WalkState) :
    OutcomeArrives s₀ id r (.next (s.goOn f (.translating ctx (use.phase w))))
      (· = use.walkEnd ctx w (use.result s₀ r.kind ctx w)) :=
  ⟨_, _, rfl, stage2_arrivesIn (h.goOn _) (h.lookup_goOn _) rfl⟩

theorem xlateStage2_arrives (h : Underway s₀ id r s f) (hctx : ctx.modesOk s₀.params = true) (gpa m : Word) (p : Perm) :
    OutcomeArrives s₀ id r (xlateStage2 f ctx gpa m p s)
      ((stage2Path s₀ ctx r.kind gpa m p).IsAt s₀.params ctx r.kind) := by
  rw [stage2Path, xlateStage2, h.tables.params, h.req_eq]
  split
  · next hon =>
    obtain ⟨geom, hgeom, -⟩ := exists_gGeometry hctx hon
    rw [hgeom]
    dsimp only
    split
    · next hrange =>
      have hwalk : stage2Walk s₀ ctx r.kind r.kind gpa = _ := stage2Walk_of_in_range (use := .dataPath) hgeom hrange m p
      rw [hwalk]
      refine (startStage2_arrives (use := .dataPath) h _).mono fun q hq => ?_
      rw [hq]
      cases Stage2Use.dataPath.result s₀ r.kind ctx (startWalk .g geom (ppnField ctx.gatp) gpa m p) <;> rfl
    · next hrange =>
      rw [stage2Walk_of_out_of_range hgeom hrange]
      exact .goOn h rfl
  · rw [xlateFinish_eq]
    exact .goOn h rfl

/-- A write that the MSI filter matches leaves for the MSI path (R260). -/
theorem xlateAfterStage1_of_msi {gpa m data : Word} {p : Perm} {size : AccessSize} (hkind : f.req.kind = .write data size)
    (hmsi : msiMatch ctx gpa = true) :
    xlateAfterStage1 f ctx gpa m p s =
      .next (s.goOn f (.translating ctx (msiStartPhase s.params ctx gpa data size))) := by
  rw [xlateAfterStage1, hkind]
  dsimp only
  rw [if_pos hmsi, msiStart_eq]

theorem xlateAfterStage1_of_not_msi {gpa m : Word} {p : Perm}
    (hmsi : ¬ (f.req.kind.isWrite = true ∧ msiMatch ctx gpa = true)) :
    xlateAfterStage1 f ctx gpa m p s = xlateStage2 f ctx gpa m p s := by
  unfold xlateAfterStage1
  split
  · next hkind => exact if_neg fun hmatch => hmsi ⟨by rw [hkind]; rfl, hmatch⟩
  all_goals rfl

theorem xlateAfterStage1_arrives (h : Underway s₀ id r s f) (hctx : ctx.modesOk s₀.params = true) (gpa m : Word) (p : Perm) :
    OutcomeArrives s₀ id r (xlateAfterStage1 f ctx gpa m p s)
      ((dataPath2 s₀ ctx r.kind gpa m p).IsAt s₀.params ctx r.kind) := by
  rw [dataPath2_eq]
  by_cases hmsi : r.kind.isWrite = true ∧ msiMatch ctx gpa = true
  · rw [if_pos hmsi]
    obtain ⟨hwrite, hmatch⟩ := hmsi
    obtain ⟨data, size, hkind⟩ := ReqKind.eq_write_of_isWrite hwrite
    rw [xlateAfterStage1_of_msi (h.req_eq ▸ hkind) hmatch, h.tables.params]
    exact .goOn h ⟨data, size, hkind, rfl⟩
  · rw [if_neg hmsi, xlateAfterStage1_of_not_msi (h.req_eq.symm ▸ hmsi)]
    exact xlateStage2_arrives h hctx gpa m p

/-! ### Stage 1 -/

/-- The supervisor-physical address of the stage-1 entry at `pa`: with stage 2 on, by an implicit translation (R276). -/
def stage1EntryAddr (s : State) (ctx : Ctx) (kind : ReqKind) (pa : Word) : Except WalkError Word :=
  if ctx.stage2On then (stage2Walk s ctx kind .read pa).map Prod.fst else .ok pa

theorem readStage1Pte_eq (s : State) (ctx : Ctx) (kind : ReqKind) (k : Nat) (pa : Word) :
    readStage1Pte s ctx kind k pa = (stage1EntryAddr s ctx kind pa).bind (readPte s kind k) := by
  rw [readStage1Pte, stage1EntryAddr]
  split
  · cases stage2Walk s ctx kind .read pa <;> rfl
  · rfl

/-- The request is about to read the entry of the stage-1 walk `w`, or its implicit translation has failed. -/
def atStage1Entry (ctx : Ctx) (w : WalkState) : Except WalkError Word → Progress
  | .error e => failedAt ctx e
  | .ok spa => .translating ctx (.sWalk w spa)

theorem xlateStage1Entry_arrives_entry (h : Underway s₀ id r s f) (hctx : ctx.modesOk s₀.params = true) (w : WalkState) :
    OutcomeArrives s₀ id r (xlateStage1Entry f ctx w s)
      (· = atStage1Entry ctx w (stage1EntryAddr s₀ ctx r.kind w.entryAddr)) := by
  rw [stage1EntryAddr, xlateStage1Entry, h.tables.params, h.req_eq]
  split
  · next hon =>
    obtain ⟨geom, hgeom, -⟩ := exists_gGeometry hctx hon
    rw [hgeom]
    dsimp only
    split
    · next hrange =>
      have hwalk : stage2Walk s₀ ctx r.kind .read w.entryAddr = _ :=
        stage2Walk_of_in_range (use := .implicit w) hgeom hrange (lowMask 64) Perm.rw
      rw [hwalk]
      refine (startStage2_arrives (use := .implicit w) h _).mono fun q hq => ?_
      rw [hq]
      cases (Stage2Use.implicit w).result s₀ r.kind ctx
        (startWalk .g geom (ppnField ctx.gatp) w.entryAddr (lowMask 64) Perm.rw) <;> rfl
    · next hrange =>
      rw [stage2Walk_of_out_of_range hgeom hrange]
      exact .goOn h rfl
  · exact .goOn h rfl

/-- The result of a stage-1 walk of a request of kind `kind`, from the level `w` stands at. -/
def stage1Result (s : State) (kind : ReqKind) (ctx : Ctx) (w : WalkState) : Except WalkError (Word × Word × Perm) :=
  walkStage (readStage1Pte s ctx kind w.geom.pteBytes) kind (tcSade ctx.tc) (pageFault .s kind, 0) (w.level + 1) w

theorem stage1Result_of_pointer {kind : ReqKind} {pte base : Word}
    (hread : readStage1Pte s ctx kind w.geom.pteBytes w.entryAddr = .ok pte)
    (hentry : walkEntry kind (tcSade ctx.tc) w pte = .pointer base) :
    stage1Result s kind ctx w = stage1Result s kind ctx (w.descend base) := by
  have hfuel : (w.descend base).level + 1 = w.level := Nat.sub_add_cancel (level_pos_of_pointer hentry)
  rw [stage1Result, walkStage_of_pointer hread hentry, stage1Result, hfuel]
  rfl

/-- A leaf's mask and permission, intersected with those gathered before it (R259). -/
def WalkState.gather (w : WalkState) : Word × Word × Perm → Word × Word × Perm
  | (out, m, p) => (out, w.mask &&& m, w.perm.inter p)

/-- The end of the data path after the stage-1 walk that stands at `w`. -/
def stage1PathEnd (s : State) (kind : ReqKind) (ctx : Ctx) (w : WalkState) : PathEnd :=
  afterStage1 s ctx kind ((stage1Result s kind ctx w).map w.gather)

/-- A request in a stage-1 walk comes to the end of the data path. -/
theorem xlateStage1Entry_arrives (h : Underway s₀ id r s f) (hctx : ctx.modesOk s₀.params = true) (w : WalkState) :
    OutcomeArrives s₀ id r (xlateStage1Entry f ctx w s) ((stage1PathEnd s₀ r.kind ctx w).IsAt s₀.params ctx r.kind) := by
  induction hlevel : w.level using Nat.strong_induction_on generalizing w s f with
  | _ level ih =>
    refine (xlateStage1Entry_arrives_entry h hctx w).trans fun t g hg hin hq => ?_
    cases haddr : stage1EntryAddr s₀ ctx r.kind w.entryAddr with
    | error e =>
      refine ⟨0, .here hg hin ?_ 0⟩
      have hpte : readStage1Pte s₀ ctx r.kind w.geom.pteBytes w.entryAddr = .error e := by
        rw [readStage1Pte_eq, haddr]
        rfl
      rw [hq, haddr, stage1PathEnd, stage1Result, walkStage_of_error hpte]
      rfl
    | ok spa =>
      rw [haddr] at hq
      have hpte : readStage1Pte s₀ ctx r.kind w.geom.pteBytes w.entryAddr = readPte s₀ r.kind w.geom.pteBytes spa := by
        rw [readStage1Pte_eq, haddr]
        rfl
      have hnext := hg.readEntry ctx .sWalk spa w.geom.pteBytes
      refine OutcomeArrives.of_requestStep hin ?_
      cases hread : s₀.readWord spa w.geom.pteBytes with
      | none =>
        rw [requestStep_sWalk_of_none hq (hg.tables.readWord .. ▸ hread), hg.req_eq]
        refine .goOn hnext ?_
        rw [stage1PathEnd, stage1Result, walkStage_of_error (hpte.trans (readPte_of_none hread))]
        rfl
      | some pte =>
        have hpte := hpte.trans (readPte_of_some hread)
        rw [← hg.tables.readWord] at hread
        cases hentry : walkEntry r.kind (tcSade ctx.tc) w pte with
        | bad =>
          rw [requestStep_sWalk_of_bad hq hread (hg.req_eq ▸ hentry), hg.req_eq]
          refine .goOn hnext ?_
          rw [stage1PathEnd, stage1Result, walkStage_of_bad hpte hentry]
          rfl
        | pointer base =>
          rw [requestStep_sWalk_of_pointer hq hread (hg.req_eq ▸ hentry)]
          have hlower : (w.descend base).level < level := by
            have hpos := level_pos_of_pointer hentry
            simp only [WalkState.descend]; omega
          rw [stage1PathEnd, stage1Result_of_pointer hpte hentry]
          exact ih _ hlower hnext (w.descend base) rfl
        | leaf out m p =>
          rw [requestStep_sWalk_of_leaf hq hread (hg.req_eq ▸ hentry), stage1PathEnd, stage1Result,
            walkStage_of_leaf hpte hentry]
          exact xlateAfterStage1_arrives hnext hctx out (w.mask &&& m) (w.perm.inter p)

/-- A walk with nothing gathered before it adds nothing to a leaf. -/
theorem startWalk_gather (stage : Stage) (geom : Geometry) (root : BitVec 44) (a : Word) (leaf : Word × Word × Perm) :
    (startWalk stage geom root a (lowMask 64) Perm.rw).gather leaf = leaf := by
  obtain ⟨out, m, p⟩ := leaf
  have hmask : lowMask 64 &&& m = m := by
    rw [show lowMask 64 = BitVec.allOnes 64 from rfl, BitVec.allOnes_and]
  have hperm : Perm.rw.inter p = p := by simp [Perm.inter, Perm.rw]
  simp only [startWalk, WalkState.gather, hmask, hperm]

theorem stage1Walk_of_in_range {kind : ReqKind} {a : Word}
    (hgeom : sGeometry s.params.cap (tcSxl ctx.tc) (modeField ctx.satp) = some geom) (hrange : rangeOk .s geom.width a = true) :
    stage1Walk s ctx kind a =
      stage1Result s kind ctx (startWalk .s geom (ppnField ctx.satp) a (lowMask 64) Perm.rw) := by
  have hfuel : (startWalk .s geom (ppnField ctx.satp) a (lowMask 64) Perm.rw).level + 1 = geom.levels :=
    Nat.sub_add_cancel (sGeometry_levels_pos hgeom)
  rw [stage1Walk, hgeom, stage1Result, hfuel]
  exact if_pos hrange

theorem stage1Walk_of_out_of_range {kind : ReqKind} {a : Word}
    (hgeom : sGeometry s.params.cap (tcSxl ctx.tc) (modeField ctx.satp) = some geom)
    (hrange : ¬ rangeOk .s geom.width a = true) : stage1Walk s ctx kind a = .error (pageFault .s kind, 0) := by
  rw [stage1Walk, hgeom]
  exact if_neg hrange

theorem xlateStage1_arrives (h : Underway s₀ id r s f) (hctx : ctx.modesOk s₀.params = true) (hon : ctx.stage1On = true) :
    OutcomeArrives s₀ id r (xlateStage1 f ctx s)
      ((afterStage1 s₀ ctx r.kind (stage1Walk s₀ ctx r.kind r.iova)).IsAt s₀.params ctx r.kind) := by
  obtain ⟨geom, hgeom, -⟩ := exists_sGeometry hctx hon
  rw [xlateStage1, h.tables.params, hgeom, h.req_eq]
  dsimp only
  split
  · next hrange =>
    have harrives := xlateStage1Entry_arrives h hctx (startWalk .s geom (ppnField ctx.satp) r.iova (lowMask 64) Perm.rw)
    rw [stage1PathEnd, ← stage1Walk_of_in_range hgeom hrange] at harrives
    cases hwalk : stage1Walk s₀ ctx r.kind r.iova with
    | error e => rwa [hwalk] at harrives
    | ok leaf =>
      rw [hwalk, Except.map, startWalk_gather] at harrives
      exact harrives
  · next hrange =>
    rw [stage1Walk_of_out_of_range hgeom hrange]
    exact .goOn h rfl

/-! ### The whole path -/

/-- A miss with a stage enabled comes to the end of the data path. -/
theorem xlateMiss_arrives (h : Underway s₀ id r s f) (hctx : ctx.modesOk s₀.params = true)
    (hon : ctx.stage1On = true ∨ ctx.stage2On = true) :
    OutcomeArrives s₀ id r (xlateMiss f ctx s) ((dataPath s₀ ctx r.kind r.iova).IsAt s₀.params ctx r.kind) := by
  have hmiss := h.event .tlbMiss
  rw [dataPath_eq, xlateMiss]
  by_cases hon1 : ctx.stage1On = true
  · rw [if_pos hon1, if_pos hon1]
    exact xlateStage1_arrives hmiss hctx hon1
  · rw [if_neg hon1, if_neg hon1, if_pos (hon.resolve_left hon1), h.req_eq]
    exact xlateAfterStage1_arrives hmiss hctx _ _ _

end

/-- Settles O42: the first step is the miss, and from it the request comes to the end of the data path. -/
theorem dataPathRefinesTheSpec : Obligations.DataPathRefinesTheSpec := by
  intro f ctx s hin hf hctx hon hats hmisses
  have hpin : Underway s f.id f.req s (f.pinTlb s) := ⟨.refl s, Option.isSome_of_eq_some hin, rfl, rfl⟩
  have hstep : requestStep f s = xlateMiss (f.pinTlb s) ctx s :=
    (requestStep_translating hf s).trans (xlateLookupStep_of_miss hats hmisses)
  obtain ⟨n, k, t, g, -, hrun, hg, hlookup, hend⟩ :=
    OutcomeArrives.of_requestStep hin (hstep ▸ xlateMiss_arrives hpin hctx hon)
  have hprogress : t.progressOf f.id = some g.progress := by rw [State.progressOf, hlookup]; rfl
  refine ⟨k, t, hrun, hg.tables.mem, hg.tables.ctxCurrent, hg.tables.tlbCurrent, ?_⟩
  rw [hprogress]
  split
  · next e hpath =>
    rw [hpath] at hend
    exact congrArg some hend
  · next gpa hpath =>
    rw [hpath] at hend
    obtain ⟨data, size, hkind, hq⟩ := hend
    exact ⟨data, size, hkind, congrArg some hq⟩
  · next gpa spa m p hpath =>
    rw [hpath] at hend
    split
    · next hmsi => exact congrArg some (hend.trans (if_pos hmsi))
    · next hmsi => exact congrArg some (hend.trans (if_neg hmsi))

/-! ## What a result guarantees (R252, R255) -/

section
variable {f g : InFlight} {s t : State}

/-- After a step of a request, the request found under its number still asks the same. -/
theorem RequestTurn.req_eq (h : RequestTurn f s t) (hg : t.lookupInflight f.id = some g) : g.req = f.req := by
  have hset {u : State} {f' : InFlight} (hid : f'.id = f.id) (hreq : f'.req = f.req)
      (hg : (u.setInflight f').lookupInflight f.id = some g) : g.req = f.req := by
    rw [State.lookupInflight_setInflight, if_pos hid.symm] at hg
    obtain ⟨_, -, rfl⟩ := Option.map_eq_some_iff.1 hg
    exact hreq
  cases h with
  | goes _ hid hreq => exact hset hid hreq hg
  | goesReleasing _ hid hreq => exact hset hid hreq hg
  | returns => rw [State.lookupInflight_finish, if_pos rfl] at hg; cases hg

/-- A step after which a request is no longer in flight has returned its result. -/
theorem RequestTurn.returns_of_lookup_none (h : RequestTurn f s t) (hin : (s.lookupInflight f.id).isSome)
    (hnone : t.lookupInflight f.id = none) : ∃ r, f.progress = .ending r ∧ t = s.finish f r := by
  have hset {u : State} {f' : InFlight} (he : RequestEffect f s u) (hid : f'.id = f.id) :
      (u.setInflight f').lookupInflight f.id ≠ none := by
    rw [State.lookupInflight_setInflight, if_pos hid.symm, he.lookupInflight, ← Option.isSome_iff_ne_none, Option.isSome_map]
    exact hin
  cases h with
  | goes he hid => exact absurd hnone (hset he hid)
  | goesReleasing he hid => exact absurd hnone (hset he hid)
  | returns hr => exact ⟨_, hr, rfl⟩

end

/-- Settles O44: soundness covers a result that is still to be returned, in the state after the step and before it. -/
theorem resultCoversTheRequest : Obligations.ResultCoversTheRequest := by
  intro s t f addr m perm hinv hin hstep
  have hturn : RequestTurn f s t := requestStep_turn ((advance_eq_requestStep hin).symm.trans hstep)
  refine ⟨fun hprogress => ?_, fun l hnone htrace => ?_⟩
  · obtain ⟨g, hg, hending⟩ := Option.map_eq_some_iff.1 hprogress
    have hok := (hinv.advance hstep).lookup_ok hg
    rw [InFlight.ok_eq, hending, hturn.req_eq hg] at hok
    exact hok
  · obtain ⟨r, hr, rfl⟩ := hturn.returns_of_lookup_none (Option.isSome_of_eq_some hin) hnone
    have hok := hinv.lookup_ok hin
    rw [State.finish_trace] at htrace
    cases htrace
    rw [InFlight.ok_eq, hr] at hok
    exact hok

/-! ## No sound state faults (R271) -/

/-- Every command answers a next state. -/
theorem exec_next (i : Instr) (s : State) : ∃ t, exec i s = .next t := by
  have hats (kind : AtsKind) (pid : BitVec 20) (pv dsv : Bool) (rid : BitVec 16) (dseg : BitVec 8) (payload : Word) :
      ∃ t, sendAts kind pid pv dsv rid dseg payload s = .next t := by
    unfold sendAts
    split <;> exact ⟨_, rfl⟩
  cases i with
  | iotinvalVma => exact ⟨_, rfl⟩
  | iotinvalGvma => dsimp only [exec, execIotinvalGvma]; split <;> exact ⟨_, rfl⟩
  | iofenceC =>
    dsimp only [exec, execIofenceC]
    split
    · split <;> exact ⟨_, rfl⟩
    · exact ⟨_, rfl⟩
  | iodirInvalDdt => exact ⟨_, rfl⟩
  | iodirInvalPdt => dsimp only [exec, execIodirInvalPdt]; split <;> exact ⟨_, rfl⟩
  | atsInval => exact hats ..
  | atsPrgr => exact hats ..

theorem commandStep_next (s : State) : ∃ t, commandStep s = .next t := by
  unfold commandStep
  split
  · split
    · exact ⟨_, rfl⟩
    · split
      · exact exec_next _ _
      · exact ⟨_, rfl⟩
  · exact ⟨_, rfl⟩

/-- The outcome of a move from `s`: a next state, or the refusal of the pending debug action (log entry 11). -/
def NextOrDebug (s : State) (o : Host.Outcome State Fault Refusal) : Prop :=
  (∃ t, o = .next t) ∨ (o = .refused .debugTranslation ∧ s.pending.debug = true)

theorem actionStep_nextOrDebug (s : State) : NextOrDebug s (actionStep s) := by
  unfold actionStep
  split
  · exact .inl ⟨_, rfl⟩
  · split
    · exact .inl ⟨_, rfl⟩
    · split
      · exact .inl ⟨_, rfl⟩
      · split
        · exact .inl ⟨_, rfl⟩
        · split
          · exact .inl ⟨_, rfl⟩
          · split
            · next hdebug => exact .inr ⟨rfl, hdebug⟩
            · exact .inl ⟨_, rfl⟩

theorem threadStep_nextOrDebug (s : State) : NextOrDebug s (threadStep s) := by
  unfold threadStep
  split
  · exact .inl (commandStep_next s)
  · exact actionStep_nextOrDebug s

/-- A step of a sound request meets a supported mode wherever it needs one. -/
theorem advance_next {s : State} (hinv : s.Inv) (id : Nat) : ∃ t, advance id s = .next t := by
  unfold advance
  split
  · next f hin =>
    obtain ⟨rfl, -⟩ := State.lookupInflight_some hin
    by_cases hend : ∃ r, f.progress = .ending r
    · obtain ⟨r, hr⟩ := hend
      exact ⟨s.finish f r, by rw [requestStep, hr]⟩
    · obtain ⟨t, hstep, -⟩ := requestStep_within (Option.isSome_of_eq_some hin) (hinv.lookup_ok hin) (not_exists.1 hend)
      exact ⟨t, hstep⟩
  · exact ⟨s, rfl⟩

theorem perform_nextOrDebug {s : State} (hinv : s.Inv) (m : Move) : NextOrDebug s (perform m s) := by
  cases m with
  | thread => exact threadStep_nextOrDebug s
  | advance id => exact .inl (advance_next hinv id)
  | latchCommand k => exact .inl ⟨_, rfl⟩
  | request devid pid iova kind => exact .inl ⟨_, rfl⟩
  | latch id k => exact .inl ⟨_, rfl⟩
  | software a => exact .inl ⟨_, rfl⟩
  | realize => exact .inl ⟨_, rfl⟩

/-- Settles O58: the schedule is no part of soundness, and no move from a sound state faults. -/
theorem soundStatesNeverFault : Obligations.SoundStatesNeverFault := by
  intro s hinv
  obtain ⟨m, rest, heq⟩ := step_eq_perform s
  have hrest : State.Inv { s with schedule := rest } := hinv
  rw [heq]
  exact perform_nextOrDebug hrest m

end Sys2Proof.Machine

/-! Proofs for 42_msi.md: the MSI address test, the MSI page-table entry, and the accesses of basic and MRIF mode. -/

namespace Sys2Proof.Machine

/-! ## Fields under a mask -/

/-- The low `n` bits of a word are the zero-extended field from bit 0 up. -/
theorem and_lowMask_eq_field (x : Word) (n : Nat) : x &&& lowMask n = (x.extractLsb' 0 n).setWidth 64 := by
  simpa using ushiftRight_and_lowMask_eq_field x (Nat.le_refl 64) (k := 0) (Nat.le_refl n) (.inl rfl)

theorem and_lowMask_eq_zero_iff (x : Word) {n : Nat} (hn : n ≤ 64) :
    x &&& lowMask n = 0 ↔ ∀ i, i < n → x.getLsbD i = false := by
  rw [← not_iff_not, ← ne_eq, and_ne_zero_iff]
  simp only [not_forall, Bool.not_eq_false]
  constructor
  · rintro ⟨i, hi, hmask, hx⟩
    rw [getLsbD_lowMask n hi, decide_eq_true_iff] at hmask
    exact ⟨i, hmask, hx⟩
  · rintro ⟨i, hin, hx⟩
    have hi : i < 64 := by omega
    exact ⟨i, hi, by rw [getLsbD_lowMask n hi, decide_eq_true hin], hx⟩

/-- The page number of an address (R320, R322). -/
theorem ushiftRight_twelve_eq_append (a : Word) : a >>> 12 = 0#12 ++ a.extractLsb' 12 52 :=
  BitVec.ushiftRight_eq_extractLsb'_of_lt (by decide)

/-- A page with the page offset of an address (R330). -/
theorem pageBase_or_and_lowMask (ppn : BitVec 44) (a : Word) :
    pageBase ppn ||| (a &&& lowMask 12) = 0#8 ++ ppn ++ a.extractLsb' 0 12 := by
  have hoffset : a &&& lowMask 12 = 0#52 ++ a.extractLsb' 0 12 :=
    (and_lowMask_eq_field a 12).trans (BitVec.setWidth_eq_append (by decide))
  rw [pageBase_eq_append, hoffset, BitVec.or_append, BitVec.or_zero, BitVec.zero_or]

/-! ## The address test (R320) -/

/-- The pattern and the page number agree where the mask selects no bit. -/
theorem msiMatch_iff (c : Ctx) (gpa : Word) :
    msiMatch c gpa = true ↔
      modeField c.msiptp = 1 ∧
      ∀ i, i < 52 → c.msiAddrMask.getLsbD i = false → gpa.getLsbD (i + 12) = c.msiAddrPattern.getLsbD i := by
  rw [msiMatch, Bool.and_eq_true, decide_eq_true_iff, decide_eq_true_iff, and_lowMask_eq_zero_iff _ (by decide)]
  refine and_congr_right fun _ => forall₂_congr fun i hi => ?_
  have hi' : i < 64 := by omega
  rw [BitVec.getLsbD_and, BitVec.getLsbD_xor, BitVec.getLsbD_not, BitVec.getLsbD_ushiftRight, Nat.add_comm 12 i]
  cases c.msiAddrMask.getLsbD i <;> simp [hi']

/-- A context of the base format has its MSI page-table pointer Off (R212). -/
theorem deviceCtx_msiptp_of_base {p : Params} (hbase : p.cap.msiFlat = false) (r : Request) (ds : List Word) :
    (deviceCtx p r ds).msiptp = 0 := by
  simp [deviceCtx, Params.dcExt, hbase]

/-- Settles O45: `msiMatch_iff`, and mode Off is not mode Flat. -/
theorem msiFilterBits : Obligations.MsiFilterBits := by
  refine ⟨msiMatch_iff, fun p r ds gpa hbase => Bool.eq_false_iff.2 fun hmatch => ?_⟩
  obtain ⟨hflat, -⟩ := (msiMatch_iff _ gpa).1 hmatch
  rw [deviceCtx_msiptp_of_base hbase] at hflat
  exact absurd hflat (by decide)

/-! ## The addresses and the data of the MSI path (R322 to R326, R332, R335) -/

theorem msiIfn_eq (ctx : Ctx) (gpa : Word) :
    msiIfn ctx gpa = extractBits (0#12 ++ gpa.extractLsb' 12 52) (0#12 ++ ctx.msiAddrMask.extractLsb' 0 52) := by
  have hmask : ctx.msiAddrMask &&& lowMask 52 = 0#12 ++ ctx.msiAddrMask.extractLsb' 0 52 :=
    (and_lowMask_eq_field _ 52).trans (BitVec.setWidth_eq_append (by decide))
  rw [msiIfn, ushiftRight_twelve_eq_append, hmask]

theorem msiPteAddr_eq (ctx : Ctx) (ifn : Word) :
    msiPteAddr ctx ifn = (0#8 ++ ctx.msiptp.extractLsb' 0 44 ++ 0#12) + ifn * 16 := by
  rw [msiPteAddr, pageBase_eq_append, ppnField]

/-- The value of a write's data is what a mask of its size leaves of it (log entry 17). -/
theorem writeValue_eq_and_lowMask (data : Word) (size : AccessSize) :
    writeValue data size = data &&& lowMask (8 * size.bytes) := by
  have hsize : 8 * size.bytes ≤ 64 := by cases size <;> decide
  rw [writeValue, and_lowMask_eq_field, BitVec.setWidth_eq_extractLsb' hsize]

theorem writeValue_eq (data : Word) (size : AccessSize) :
    writeValue data size = match size with
      | .b1 => data &&& 0xFF
      | .b2 => data &&& 0xFFFF
      | .b4 => data &&& 0xFFFFFFFF
      | .b8 => data := by
  rw [writeValue_eq_and_lowMask]
  cases size with
  | b1 => rfl
  | b2 => rfl
  | b4 => rfl
  | b8 => exact BitVec.and_allOnes

theorem mrifBase_eq_append (m0 : Word) : mrifBase m0 = 0#8 ++ m0.extractLsb' 7 47 ++ 0#9 := by
  have hshift := BitVec.setWidth_append_eq_shiftLeft_setWidth_or (b := m0.extractLsb' 7 47) (b' := 0#9) (w'' := 64)
  rw [BitVec.setWidth_zero, BitVec.or_zero] at hshift
  have hextend : (m0.extractLsb' 7 47 ++ 0#9).setWidth 64 = 0#8 ++ (m0.extractLsb' 7 47 ++ 0#9) :=
    BitVec.setWidth_eq_append (by decide)
  exact hshift.symm.trans (hextend.trans BitVec.append_assoc')

theorem mrifPendingAddr_eq (m0 id : Word) :
    mrifPendingAddr m0 id = (0#8 ++ m0.extractLsb' 7 47 ++ 0#9) + BitVec.ofNat 64 (id.toNat / 64 * 16) := by
  have hgroup : id >>> 6 = BitVec.ofNat 64 (id.toNat / 64) := by
    rw [← BitVec.setWidth_eq (id >>> 6), ← BitVec.ofNat_toNat, BitVec.toNat_ushiftRight, Nat.shiftRight_eq_div_pow]
  rw [mrifPendingAddr, mrifBase_eq_append, hgroup, BitVec.ofNat_mul]
  rfl

/-! ## The MSI page-table entry (R326 to R334) -/

section
variable {cap : Cap} {id gpa m0 m1 : Word}

theorem msiEntry_of_invalid (h : m0.getLsbD 0 = false ∨ m0.getLsbD 63 = true) :
    msiEntry cap id gpa (some [m0, m1]) = .fail .msiPteInvalid :=
  if_pos (by simpa using h)

/-- The mode of a valid entry without custom use decides (R328 to R334). -/
theorem msiEntry_of_valid (hv : m0.getLsbD 0 = true) (hc : m0.getLsbD 63 = false) :
    msiEntry cap id gpa (some [m0, m1]) =
      if m0.extractLsb' 1 2 = 3 then .forward (pageBase (m0.extractLsb' 10 44) ||| (gpa &&& lowMask 12))
      else if m0.extractLsb' 1 2 = 1 ∧ cap.msiMrif = true then
        if gpa.extractLsb' 0 2 ≠ 0 ∨ 2047 < id.toNat then .fail .msiPteMisconfigured
        else .mrif (mrifPendingAddr m0 id) id m1
      else .fail .msiPteMisconfigured :=
  if_neg (by rw [List.getD_cons_zero, hv, hc]; decide)

theorem msiEntry_of_basic (hv : m0.getLsbD 0 = true) (hc : m0.getLsbD 63 = false) (hmode : m0.extractLsb' 1 2 = 3) :
    msiEntry cap id gpa (some [m0, m1]) = .forward (0#8 ++ m0.extractLsb' 10 44 ++ gpa.extractLsb' 0 12) := by
  rw [msiEntry_of_valid hv hc, if_pos hmode, pageBase_or_and_lowMask]

theorem low_two_bits_ne_zero_iff : gpa.extractLsb' 0 2 ≠ 0 ↔ gpa.toNat % 4 ≠ 0 := by
  rw [BitVec.toNat_ne, BitVec.extractLsb'_toNat]
  rfl

theorem msiEntry_of_mrif (hv : m0.getLsbD 0 = true) (hc : m0.getLsbD 63 = false) (hmode : m0.extractLsb' 1 2 = 1)
    (hcap : cap.msiMrif = true) :
    msiEntry cap id gpa (some [m0, m1]) =
      if gpa.toNat % 4 ≠ 0 ∨ 2047 < id.toNat then .fail .msiPteMisconfigured
      else .mrif ((0#8 ++ m0.extractLsb' 7 47 ++ 0#9) + BitVec.ofNat 64 (id.toNat / 64 * 16)) id m1 := by
  rw [msiEntry_of_valid hv hc, if_neg (by rw [hmode]; decide), if_pos ⟨hmode, hcap⟩, mrifPendingAddr_eq]
  simp only [low_two_bits_ne_zero_iff]

theorem msiEntry_of_other_mode (hv : m0.getLsbD 0 = true) (hc : m0.getLsbD 63 = false) (hbasic : m0.extractLsb' 1 2 ≠ 3)
    (hmrif : m0.extractLsb' 1 2 ≠ 1 ∨ cap.msiMrif = false) :
    msiEntry cap id gpa (some [m0, m1]) = .fail .msiPteMisconfigured := by
  have hnot : ¬ (m0.extractLsb' 1 2 = 1 ∧ cap.msiMrif = true) := by
    rintro ⟨hmode, hcap⟩
    exact hmrif.elim (· hmode) (by simp [hcap])
  rw [msiEntry_of_valid hv hc, if_neg hbasic, if_neg hnot]

end

/-- Where the request goes from an MSI page-table entry (R326 to R334). -/
def MsiOutcome.phase (data : Word) (size : AccessSize) : MsiOutcome → XlatePhase
  | .fail cause => .report cause 0
  | .forward target => .msiForward target data size
  | .mrif pa id m1 => .mrifPendingRead pa id m1

/-- The step that reads the entry logs one read and goes where the entry leads. -/
theorem msiPteStep_eq (f : InFlight) (ctx : Ctx) (gpa ifn data : Word) (size : AccessSize) (s : State) :
    let r := s.readDwords f.latches (msiPteAddr ctx ifn) 2
    msiPteStep f ctx gpa ifn data size s = (s.logAccess .read (msiPteAddr ctx ifn) 16 r.isSome).goOn f
      (.translating ctx ((msiEntry s.params.cap (writeValue data size) gpa r).phase data size)) := by
  dsimp only [msiPteStep]
  split <;> next heq => rw [heq]; rfl

/-- Settles O47: the two addresses and the data, the step by `msiPteStep_eq`, and the entry's checks in their order. -/
theorem msiEntryChecks : Obligations.MsiEntryChecks := by
  refine ⟨fun ctx gpa ifn data size => ⟨msiIfn_eq ctx gpa, msiPteAddr_eq ctx ifn, ?_⟩,
    fun f ctx gpa ifn data size s hf => ?_, fun cap id gpa => ⟨rfl, fun m0 m1 => ⟨msiEntry_of_invalid, fun hv hc =>
      ⟨msiEntry_of_basic hv hc, msiEntry_of_mrif hv hc, msiEntry_of_other_mode hv hc⟩⟩⟩⟩
  · exact (writeValue_eq data size).trans (by cases size <;> rfl)
  · rw [requestStep_translating hf, xlateStep, msiPteStep_eq]
    dsimp only
    cases msiEntry s.params.cap (writeValue data size) gpa (s.readDwords f.latches (msiPteAddr ctx ifn) 2) <;> rfl

/-! ## Reading back what was stored (R24, R82, R83) -/

theorem length_leBytes (n : Nat) (v : Word) : (leBytes n v).length = n := by
  rw [leBytes, List.length_map, List.length_range]

/-- Byte `k` of a stored value is its byte `k`, the lowest first. -/
theorem Memory.at_store_leBytes {m : Memory} (h : m.WF) (a v : Word) {n : Nat} (hn : n ≤ 2 ^ 64) {k : Nat} (hk : k < n) :
    (m.store a (leBytes n v)).at (a + BitVec.ofNat 64 k) = v.extractLsb' (8 * k) 8 := by
  rw [Memory.at_store_inside h a (leBytes n v) (by rwa [length_leBytes]) k (by rwa [length_leBytes])]
  simp only [leBytes, List.getElem_map, List.getElem_range]

theorem Memory.at_store_leBytes_zero {m : Memory} (h : m.WF) (a v : Word) {n : Nat} (hn : n ≤ 2 ^ 64) (hpos : 0 < n) :
    (m.store a (leBytes n v)).at a = v.extractLsb' 0 8 := by
  simpa using Memory.at_store_leBytes h a v hn hpos

/-- A stored dword reads back. -/
theorem Memory.dword_store_leBytes {m : Memory} (h : m.WF) (a v : Word) : (m.store a (leBytes 8 v)).dword a = v := by
  have hbyte (k : Nat) (hk : k < 8) := Memory.at_store_leBytes h a v (n := 8) (by decide) hk
  rw [Memory.dword]
  simp only [BitVec.ofNat_eq_ofNat]
  rw [Memory.at_store_leBytes_zero h a v (by decide) (by decide), hbyte 1 (by decide), hbyte 2 (by decide),
    hbyte 3 (by decide), hbyte 4 (by decide), hbyte 5 (by decide), hbyte 6 (by decide), hbyte 7 (by decide)]
  exact dwordOfBytes_extract v

/-- Four bytes of a dword are its low half. -/
theorem word32OfBytes_extract (v : Word) :
    word32OfBytes (v.extractLsb' 0 8) (v.extractLsb' 8 8) (v.extractLsb' 16 8) (v.extractLsb' 24 8) =
      v.extractLsb' 0 32 := by
  refine (?_ : FieldAt v 0 _)
  simp only [word32OfBytes, FieldAt.append_iff, and_assoc]
  exact ⟨.extract, .extract, .extract, .extract⟩

/-- A stored 32-bit value reads back. -/
theorem Memory.word32_store_leBytes {m : Memory} (h : m.WF) (a v : Word) :
    (m.store a (leBytes 4 v)).word32 a = v.extractLsb' 0 32 := by
  have hbyte (k : Nat) (hk : k < 4) := Memory.at_store_leBytes h a v (n := 4) (by decide) hk
  rw [Memory.word32]
  simp only [BitVec.ofNat_eq_ofNat]
  rw [Memory.at_store_leBytes_zero h a v (by decide) (by decide), hbyte 1 (by decide), hbyte 2 (by decide),
    hbyte 3 (by decide)]
  exact word32OfBytes_extract v

/-! ## The write steps of the MSI path

Each of the three makes one write, and the request goes on to one place if the write fails and to another if it does not. -/

/-- The request `f` writes `bs` from `a` up, and goes on at `done`, or at `failed` if the write fails. -/
def State.writeThen (s : State) (f : InFlight) (a : Word) (bs : List Byte) (failed done : Progress) : State :=
  if accessFails s.failing .write a bs.length then (s.logAccess .write a bs.length false).goOn f failed
  else (State.logAccess { s with mem := s.mem.store a bs } .write a bs.length true).goOn f done

section
variable (s : State) (f : InFlight) (ctx : Ctx)

theorem msiForwardStep_eq (target data : Word) (size : AccessSize) :
    msiForwardStep f ctx target data size s = s.writeThen f target (leBytes size.bytes data)
      (.translating ctx (.report .msiWriteFault 0)) (.ending .msiDone) := by
  unfold msiForwardStep State.memWrite State.writeThen
  split_ifs <;> rfl

theorem mrifPendingWriteStep_eq (pa id m1 pending : Word) :
    mrifPendingWriteStep f ctx pa id m1 pending s = s.writeThen f pa (leBytes 8 (pending ||| (1#64 <<< (id.toNat % 64))))
      (.translating ctx (.report .mrifAccessFault 0)) (.translating ctx (.mrifEnable pa id m1)) := by
  unfold mrifPendingWriteStep State.memWrite State.writeThen
  split_ifs <;> rfl

theorem mrifNoticeStep_eq (m1 : Word) :
    mrifNoticeStep f ctx m1 s = s.writeThen f (noticeAddr m1) (leBytes 4 ((noticeId m1).setWidth 64))
      (.translating ctx (.report .msiWriteFault 0)) (.ending .msiDone) := by
  unfold mrifNoticeStep State.memWrite State.writeThen
  split_ifs <;> rfl

variable {s f} {a : Word} {n : Nat} {v : Word} {failed done : Progress}

theorem State.writeThen_iotlb {bs : List Byte} : (s.writeThen f a bs failed done).iotlb = s.iotlb := by
  unfold State.writeThen
  split_ifs <;> rfl

/-- Whether the write fails or not, no byte outside it changes. -/
theorem State.writeThen_outside (hwf : s.mem.WF) {x : Word} (hx : ¬ inBytes a n x) :
    (s.writeThen f a (leBytes n v) failed done).mem.at x = s.mem.at x := by
  unfold State.writeThen
  split_ifs
  · rfl
  · exact Memory.at_store_outside hwf a _ x (by rwa [length_leBytes])

/-- A failed write stores nothing (log entry 22). -/
theorem State.writeThen_of_fails (hin : (s.lookupInflight f.id).isSome) (h : accessFails s.failing .write a n = true) :
    (s.writeThen f a (leBytes n v) failed done).mem = s.mem ∧
    (s.writeThen f a (leBytes n v) failed done).progressOf f.id = some failed ∧
    (s.writeThen f a (leBytes n v) failed done).trace = .access .write a n false :: s.trace := by
  rw [State.writeThen, length_leBytes, if_pos h]
  exact ⟨rfl, State.progressOf_goOn_self hin failed, rfl⟩

theorem State.writeThen_of_works (hin : (s.lookupInflight f.id).isSome) (h : ¬ accessFails s.failing .write a n = true) :
    (s.writeThen f a (leBytes n v) failed done).mem = s.mem.store a (leBytes n v) ∧
    (s.writeThen f a (leBytes n v) failed done).progressOf f.id = some done ∧
    (s.writeThen f a (leBytes n v) failed done).trace = .access .write a n true :: s.trace := by
  rw [State.writeThen, length_leBytes, if_neg h]
  exact ⟨rfl, State.progressOf_goOn_self hin done, rfl⟩

end

/-! ## Basic mode (R330, R331) -/

theorem AccessSize.bytes_le (size : AccessSize) : size.bytes ≤ 8 := by cases size <;> decide

/-- Settles O48: the step is one write of the data's low bytes, at the target. -/
theorem basicModeForwardsTheWrite : Obligations.BasicModeForwardsTheWrite := by
  intro f ctx target data size s hf hin hwf
  have hsome := Option.isSome_of_eq_some hin
  refine ⟨_, by rw [requestStep_translating hf, xlateStep, msiForwardStep_eq], State.writeThen_iotlb,
    fun x hx => State.writeThen_outside hwf hx, ?_⟩
  split_ifs with hfail
  · exact State.writeThen_of_fails hsome hfail
  · obtain ⟨hmem, hdone, htrace⟩ := State.writeThen_of_works (v := data) hsome hfail
    refine ⟨fun k hk => ?_, hdone, htrace⟩
    rw [hmem]
    exact Memory.at_store_leBytes hwf target data (size.bytes_le.trans (by decide)) hk

/-! ## MRIF mode (R335 to R337) -/

section
variable {s : State} {f : InFlight} {ctx : Ctx} {pa id m1 : Word}

theorem State.readWord_eight_of_fails {a : Word} (h : accessFails s.failing .read a 8 = true) : s.readWord a 8 = none := by
  rw [State.readWord, if_pos h]

theorem State.readWord_eight_of_works {a : Word} (h : ¬ accessFails s.failing .read a 8 = true) :
    s.readWord a 8 = some (s.mem.dword a) := by
  rw [State.readWord, if_neg h, if_neg (by decide)]

theorem mrifPendingReadStep_of_fails (h : accessFails s.failing .read pa 8 = true) :
    mrifPendingReadStep f ctx pa id m1 s =
      (s.logAccess .read pa 8 false).goOn f (.translating ctx (.report .mrifAccessFault 0)) := by
  rw [mrifPendingReadStep, State.readWord_eight_of_fails h]
  rfl

theorem mrifPendingReadStep_of_works (h : ¬ accessFails s.failing .read pa 8 = true) :
    mrifPendingReadStep f ctx pa id m1 s =
      (s.logAccess .read pa 8 true).goOn f (.translating ctx (.mrifPendingWrite pa id m1 (s.mem.dword pa))) := by
  rw [mrifPendingReadStep, State.readWord_eight_of_works h]
  rfl

theorem mrifEnableStep_of_fails (h : accessFails s.failing .read (pa + 8) 8 = true) :
    mrifEnableStep f ctx pa id m1 s =
      (s.logAccess .read (pa + 8) 8 false).goOn f (.translating ctx (.report .mrifAccessFault 0)) := by
  rw [mrifEnableStep, State.readWord_eight_of_fails h]
  rfl

theorem mrifEnableStep_of_works (h : ¬ accessFails s.failing .read (pa + 8) 8 = true) :
    mrifEnableStep f ctx pa id m1 s =
      (s.logAccess .read (pa + 8) 8 true).goOn f
        (if (s.mem.dword (pa + 8)).getLsbD (id.toNat % 64) = true then .translating ctx (.mrifNotice m1)
          else .ending .msiDone) := by
  dsimp only [mrifEnableStep]
  rw [State.readWord_eight_of_works h]
  dsimp only
  split_ifs <;> rfl

/-- One step of a request in flight, nobody else moving. -/
theorem runAlone_one_of_requestStep {t : State} (hin : s.lookupInflight f.id = some f) (h : requestStep f s = .next t) :
    runAlone f.id 1 s = .next t :=
  runAlone_succ ((advance_eq_requestStep hin).trans h) 0

end

/-- Bit `k` alone, as the step shifts it into place and as the statement writes it. -/
theorem shiftLeft_one_eq_ofNat (k : Nat) : (1#64 <<< k : Word) = BitVec.ofNat 64 (2 ^ k) := by
  rw [← BitVec.twoPow_eq]
  exact BitVec.eq_of_toNat_eq (by rw [BitVec.toNat_twoPow, BitVec.toNat_ofNat])

/-- The step that writes the pending dword back sets one bit of what was read, or stores nothing and fails (R335). -/
theorem mrifPendingWrite_sets_bit {g : InFlight} {u : State} {ctx : Ctx} {pa id m1 pending : Word}
    (hg : g.progress = .translating ctx (.mrifPendingWrite pa id m1 pending)) (hin : u.lookupInflight g.id = some g)
    (hwf : u.mem.WF) :
    ∃ t, runAlone g.id 1 u = .next t ∧ (∀ x : Word, ¬ inBytes pa 8 x → t.mem.at x = u.mem.at x) ∧
      if accessFails u.failing .write pa 8 = true then
        t.mem = u.mem ∧ t.progressOf g.id = some (.translating ctx (.report .mrifAccessFault 0))
      else
        t.mem.dword pa = pending ||| BitVec.ofNat 64 (2 ^ (id.toNat % 64)) ∧
        t.progressOf g.id = some (.translating ctx (.mrifEnable pa id m1)) := by
  have hsome := Option.isSome_of_eq_some hin
  have hstep : requestStep g u = .next (mrifPendingWriteStep g ctx pa id m1 pending u) := requestStep_translating hg u
  rw [mrifPendingWriteStep_eq] at hstep
  refine ⟨_, runAlone_one_of_requestStep hin hstep, fun x hx => State.writeThen_outside hwf hx, ?_⟩
  split_ifs with hfail
  · obtain ⟨hmem, hreport, -⟩ := State.writeThen_of_fails hsome hfail
    exact ⟨hmem, hreport⟩
  · obtain ⟨hmem, henable, -⟩ := State.writeThen_of_works hsome hfail
    refine ⟨?_, henable⟩
    rw [hmem, Memory.dword_store_leBytes hwf, shiftLeft_one_eq_ofNat]

/-- Settles O49: the pending dword that the first step reads is what the second writes back with one more bit, over a
memory that has not changed in between. -/
theorem mrifPendingBit : Obligations.MrifPendingBit := by
  intro f ctx pa id m1 s hf hin hwf
  have hsome := Option.isSome_of_eq_some hin
  have hread : requestStep f s = .next (mrifPendingReadStep f ctx pa id m1 s) := requestStep_translating hf s
  refine ⟨_, runAlone_one_of_requestStep hin hread, mrifPendingReadStep_mem f ctx s pa id m1, fun hfail => ?_,
    fun hworks => ?_⟩
  · rw [mrifPendingReadStep_of_fails hfail]
    exact State.progressOf_goOn_self hsome _
  · rw [mrifPendingReadStep_of_works (by rw [hworks]; decide)]
    exact mrifPendingWrite_sets_bit
      (g := { f with progress := .translating ctx (.mrifPendingWrite pa id m1 (s.mem.dword pa)), latches := [] }) rfl
      (State.lookupInflight_goOn_self hsome _) hwf

/-- The notice's four bytes are its identifier, zero-extended. -/
theorem noticeId_extract (m1 : Word) :
    ((noticeId m1).setWidth 64).extractLsb' 0 32 = 0#21 ++ (m1.extractLsb' 60 1 ++ m1.extractLsb' 0 10) := by
  rw [← BitVec.setWidth_eq_extractLsb' (by decide), BitVec.setWidth_setWidth_of_le _ (by decide)]
  exact BitVec.setWidth_eq_append (by decide)

/-- Settles O50: the enable step only reads; the notice step is one write of four bytes. -/
theorem mrifEnableAndNotice : Obligations.MrifEnableAndNotice := by
  intro f ctx s hin hwf
  have hsome := Option.isSome_of_eq_some hin
  constructor
  · intro pa id m1 hf
    refine ⟨_, requestStep_translating hf s, mrifEnableStep_mem f ctx s pa id m1, ?_⟩
    split_ifs with hfail henabled
    · rw [mrifEnableStep_of_fails hfail]
      exact State.progressOf_goOn_self hsome _
    · rw [mrifEnableStep_of_works hfail, if_pos henabled]
      exact State.progressOf_goOn_self hsome _
    · rw [mrifEnableStep_of_works hfail, if_neg henabled]
      exact State.progressOf_goOn_self hsome _
  · intro m1 hf
    have hstep : requestStep f s = .next (mrifNoticeStep f ctx m1 s) := requestStep_translating hf s
    rw [mrifNoticeStep_eq, noticeAddr, pageBase_eq_append] at hstep
    refine ⟨_, hstep, fun x hx => State.writeThen_outside hwf hx, ?_⟩
    split_ifs with hfail
    · obtain ⟨hmem, hreport, -⟩ := State.writeThen_of_fails hsome hfail
      exact ⟨hmem, hreport⟩
    · obtain ⟨hmem, hdone, -⟩ := State.writeThen_of_works hsome hfail
      refine ⟨?_, hdone⟩
      rw [hmem, Memory.word32_store_leBytes hwf, noticeId_extract]

end Sys2Proof.Machine

/-! Proofs for 43_commands.md: what each command does and leaves unchanged, the command loop, and the pending actions of
the background thread. -/

namespace Sys2Proof.Machine

/-! ## The scopes of an invalidation (R361 to R363, R380, R381) -/

theorem TlbEntry.ite_invalidate (covered : Bool) (e : TlbEntry) :
    (if covered = true then e.invalidate else e) = { e with valid := e.valid && !covered } := by
  cases covered <;> simp [TlbEntry.invalidate]

theorem CtxEntry.ite_invalidate (covered : Bool) (e : CtxEntry) :
    (if covered = true then e.invalidate else e) = { e with valid := e.valid && !covered } := by
  cases covered <;> simp [CtxEntry.invalidate]

/-- The valid bits GV, PSCV, AV narrow the scope one after the other. -/
theorem vmaScope_covers (av : Bool) (pscid : BitVec 20) (pscv gv : Bool) (gscid : BitVec 16) (addr : BitVec 52)
    (e : TlbEntry) :
    (vmaScope av pscid pscv gv gscid addr).covers e =
      (!gv || (decide (e.gscid = gscid) && (!pscv || (decide (e.pscid = pscid) && (!av || decide (e.vpn = addr)))))) := by
  cases gv
  · rfl
  · cases pscv
    · simp [vmaScope, Scope.covers]
    · cases av <;> simp [vmaScope, Scope.covers, Bool.and_assoc]

theorem gvmaScope_covers (gv : Bool) (gscid : BitVec 16) (e : TlbEntry) :
    (gvmaScope gv gscid).covers e = !(gv && decide (e.gscid ≠ gscid)) := by
  cases gv <;> simp [gvmaScope, Scope.covers]

/-- A scope does not look at the valid bit. -/
@[simp] theorem Scope.covers_withValid (scope : Scope) (e : TlbEntry) (b : Bool) :
    scope.covers { e with valid := b } = scope.covers e := by
  cases scope <;> rfl

/-- A completed IOTLB invalidation, field by field. -/
theorem State.invalTlb_retire_eq (s : State) (scope : Scope) :
    (s.invalTlb scope).retire =
      { s with
        iotlb := { s.iotlb with current := { s.iotlb.current with
          entries := s.iotlb.current.entries.map fun e => { e with valid := e.valid && !scope.covers e } } }
        cq := { s.cq with head := (s.cq.head + 1) % s.cq.size } } := by
  simp only [← TlbEntry.ite_invalidate]
  rfl

/-- A completed context-cache invalidation, field by field. -/
theorem State.invalCtx_retire_eq (s : State) (which : CtxEntry → Bool) :
    (s.invalCtx which).retire =
      { s with
        ctxCache := { s.ctxCache with current := { s.ctxCache.current with
          entries := s.ctxCache.current.entries.map fun e => { e with valid := e.valid && !which e } } }
        cq := { s.cq with head := (s.cq.head + 1) % s.cq.size } } := by
  simp only [← CtxEntry.ite_invalidate]
  rfl

/-! ## IOTINVAL (R361 to R364) -/

/-- Settles O1: the scope chosen by the valid bits covers what the statement writes out. -/
theorem iotinvalVmaEffect : Obligations.IotinvalVmaEffect := by
  intro av pscid pscv gv gscid addr s
  simp only [← vmaScope_covers av pscid pscv gv gscid addr, ← State.invalTlb_retire_eq]
  rfl

/-- Settles O2: with PSCV the illegal stop, else the invalidation of one GSCID or of everything. -/
theorem iotinvalGvmaEffect : Obligations.IotinvalGvmaEffect := by
  intro av pscid pscv gv gscid addr s
  refine ⟨.idle, ?_⟩
  cases pscv with
  | true => rfl
  | false =>
    have hkeep (e : TlbEntry) : (gv && decide (e.gscid ≠ gscid)) = !(gvmaScope gv gscid).covers e := by
      rw [gvmaScope_covers, Bool.not_not]
    simp only [hkeep, Bool.false_eq_true, if_false, ← State.invalTlb_retire_eq]
    rfl

/-- Settles O7: a scope covers the same entries the second time, and clears valid bits that are clear. -/
theorem invalidationIdempotent : Obligations.InvalidationIdempotent := by
  refine fun scope s => ⟨?_, rfl, rfl⟩
  simp only [State.invalTlb_iotlb, Cache.setEntries_entries, List.map_map, Function.comp_def, TlbEntry.ite_invalidate,
    Scope.covers_withValid, Bool.and_assoc, Bool.and_self]
  rfl

/-- An IOTLB entry found by a key has that key. -/
theorem State.tlbEntry_some {s : State} {g : BitVec 16} {p : BitVec 20} {v : BitVec 52} {e : TlbEntry}
    (h : s.tlbEntry g p v = some e) : e.gscid = g ∧ e.pscid = p ∧ e.vpn = v := by
  simpa [TlbEntry.hasKey, and_assoc] using List.find?_some h

/-- A context-cache entry found by a key has that key. -/
theorem State.ctxEntry_some {s : State} {d : BitVec 24} {p : BitVec 20} {e : CtxEntry} (h : s.ctxEntry d p = some e) :
    e.ctx.devid = d ∧ e.ctx.pid = p := by
  simpa [CtxEntry.hasKey] using List.find?_some h

/-- Settles O8: the scope covers the entry of a key exactly if it covers the key. -/
theorem vmaInvalidatesExactlyItsScope : Obligations.VmaInvalidatesExactlyItsScope := by
  intro av pscid pscv gv gscid addr s t h g p v
  cases h
  refine (State.invalTlb_tlbEntry s _ g p v).trans (Option.map_congr fun e he => ?_)
  obtain ⟨rfl, rfl, rfl⟩ := State.tlbEntry_some he
  simp only [vmaScope_covers, Bool.or_eq_true, Bool.and_eq_true, Bool.not_eq_true', decide_eq_true_eq]
  rfl

/-! ## IODIR (R380 to R382) -/

/-- Settles O5: both commands invalidate the entries their meaning picks out; INVAL_PDT without DV is illegal. -/
theorem iodirCommandsEffect : Obligations.IodirCommandsEffect := by
  intro pid dv did s
  refine ⟨.idle, ?_⟩
  intro after
  have hafter (which : CtxEntry → Bool) : after (fun e => !which e) = (s.invalCtx which).retire :=
    (State.invalCtx_retire_eq s which).symm
  constructor
  · have hkeep : (fun e : CtxEntry => dv && decide (e.ctx.devid ≠ did)) =
        fun e => !(!dv || decide (e.ctx.devid = did)) := by
      funext e; simp
    rw [hkeep, hafter]
    rfl
  · cases dv with
    | false => rfl
    | true =>
      have hkeep : (fun e : CtxEntry => decide (e.ctx.devid ≠ did) || decide (e.ctx.pid ≠ pid)) =
          fun e => !CtxEntry.hasKey did pid e := by
        funext e; simp [CtxEntry.hasKey]
      rw [hkeep, hafter]
      rfl

/-- Settles O9: an IODIR command picks out the entry of a key by the key alone, or is illegal and picks out none. -/
theorem iodirInvalidatesExactlyItsScope : Obligations.IodirInvalidatesExactlyItsScope := by
  refine fun pid dv did s => ⟨fun t h => ?_, fun t h => ?_⟩
  · cases h
    refine ⟨rfl, fun d p => (State.invalCtx_ctxEntry s _ d p).trans (Option.map_congr fun e he => ?_)⟩
    obtain ⟨rfl, rfl⟩ := State.ctxEntry_some he
    simp only [Bool.or_eq_true, Bool.not_eq_true', decide_eq_true_eq]
    rfl
  · cases dv with
    | false =>
      cases h
      exact ⟨rfl, fun d p => by simp only [Bool.false_eq_true, false_and, if_false, Option.map_id']; rfl⟩
    | true =>
      cases h
      refine ⟨rfl, fun d p => (State.invalCtx_ctxEntry s _ d p).trans (Option.map_congr fun e he => ?_)⟩
      obtain ⟨rfl, rfl⟩ := State.ctxEntry_some he
      simp only [CtxEntry.hasKey, Bool.and_eq_true, decide_eq_true_eq, true_and]
      rfl

/-! ## ATS (R385, R386) -/

theorem sendAts_of_ats {s : State} (h : s.params.cap.ats = true) (kind : AtsKind) (pid : BitVec 20) (pv dsv : Bool)
    (rid : BitVec 16) (dseg : BitVec 8) (payload : Word) :
    sendAts kind pid pv dsv rid dseg payload s =
      .next (s.emit (.atsEvent kind (atsDevid dsv dseg rid) (atsPid pv pid) payload)).retire := if_pos h

theorem sendAts_of_no_ats {s : State} (h : s.params.cap.ats = false) (kind : AtsKind) (pid : BitVec 20) (pv dsv : Bool)
    (rid : BitVec 16) (dseg : BitVec 8) (payload : Word) :
    sendAts kind pid pv dsv rid dseg payload s = .next s.stopIllegal := if_neg (by simp [h])

/-- The target device id as the concatenation R169 writes. -/
theorem atsDevid_eq (dsv : Bool) (dseg : BitVec 8) (rid : BitVec 16) :
    atsDevid dsv dseg rid = if dsv = true then dseg ++ rid else 0#8 ++ rid := by
  rw [atsDevid, BitVec.setWidth_eq_append (by decide)]
  rfl

/-- Settles O6: one event and the advance of the head, or the illegal stop. -/
theorem atsCommandsEffect : Obligations.AtsCommandsEffect := by
  intro pid pv dsv rid dseg payload s
  refine ⟨.idle, ?_⟩
  intro after
  have hsend (kind : AtsKind) : sendAts kind pid pv dsv rid dseg payload s = .next (after kind) := by
    by_cases h : s.params.cap.ats = false
    · rw [sendAts_of_no_ats h]
      exact congrArg _ (if_pos h).symm
    · rw [sendAts_of_ats (by simpa using h), atsDevid_eq]
      exact congrArg _ (if_neg h).symm
  exact ⟨hsend .inval, hsend .prgr⟩

/-! ## IOFENCE.C (R375, R377) -/

/-- The completion address is the operand above two zero bits. -/
theorem iofenceAddress_eq_append (addr : BitVec 62) : iofenceAddress addr = addr ++ 0#2 := by
  have happend : (addr ++ 0#2).toNat = addr.toNat <<< 2 := by
    rw [BitVec.toNat_append]
    simp
  have haddr : (iofenceAddress addr).toNat = addr.toNat <<< 2 := by
    simp only [iofenceAddress, BitVec.toNat_shiftLeft, BitVec.toNat_setWidth, Nat.shiftLeft_eq]
    omega
  exact BitVec.eq_of_toNat_eq (haddr.trans happend.symm)

/-- A fence's interrupt, field by field. -/
theorem fenceInterrupt_eq (wsi : Bool) (s : State) :
    fenceInterrupt wsi s =
      { s with
        cq := { s.cq with fenceWIp := s.cq.fenceWIp || wsi }
        trace := (if wsi = true then [.signal .cq] else []) ++ s.trace } := by
  cases wsi
  · simp [fenceInterrupt]
  · simp [fenceInterrupt, State.signal, State.emit]

/-- The state after the completion write of a fence. -/
def State.fenceWrite (s : State) (data : BitVec 32) (addr : BitVec 62) : State :=
  State.logAccess { s with mem := s.mem.store (iofenceAddress addr) (leBytes 4 (data.setWidth 64)) } .write
    (iofenceAddress addr) 4 true

/-- What IOFENCE.C can do: complete without a write, stop on its failed write, or complete after its write. -/
theorem exec_iofenceC_cases {av wsi pr pw : Bool} {data : BitVec 32} {addr : BitVec 62} {s t : State}
    (h : exec (.iofenceC av wsi pr pw data addr) s = .next t) :
    (av = false ∧ t = (fenceInterrupt wsi s).retire) ∨
    (av = true ∧ accessFails s.failing .write (iofenceAddress addr) 4 = true ∧
      t = (s.logAccess .write (iofenceAddress addr) 4 false).stopMemFault) ∨
    (av = true ∧ accessFails s.failing .write (iofenceAddress addr) 4 = false ∧
      t = (fenceInterrupt wsi (s.fenceWrite data addr)).retire) := by
  dsimp only [exec, execIofenceC] at h
  split at h
  · next hav =>
    split at h
    · next hw =>
      cases h
      obtain ⟨hfail, -, rfl⟩ | ⟨-, hok, -⟩ := State.memWrite_cases hw
      · exact .inr (.inl ⟨hav, hfail, rfl⟩)
      · cases hok
    · next hw =>
      cases h
      obtain ⟨-, hok, -⟩ | ⟨hworks, -, rfl⟩ := State.memWrite_cases hw
      · cases hok
      · exact .inr (.inr ⟨hav, hworks, rfl⟩)
  · next hav => cases h; exact .inl ⟨by simpa using hav, rfl⟩

/-- The four bytes of a fence's data, the low byte first. -/
theorem leBytes_four_setWidth (data : BitVec 32) :
    leBytes 4 (data.setWidth 64) =
      [data.extractLsb' 0 8, data.extractLsb' 8 8, data.extractLsb' 16 8, data.extractLsb' 24 8] := by
  have hbyte (k : Nat) (hk : k + 8 ≤ 32) : (data.setWidth 64).extractLsb' k 8 = data.extractLsb' k 8 := by
    apply BitVec.eq_of_getLsbD_eq
    intro i hi
    have hlt : k + i < 64 := by omega
    simp [hi, hlt]
  rw [← hbyte 0 (by decide), ← hbyte 8 (by decide), ← hbyte 16 (by decide), ← hbyte 24 (by decide)]
  rfl

/-- Settles O3: the three ends of a fence. -/
theorem iofenceEffect : Obligations.IofenceEffect := by
  intro av wsi pr pw data addr s
  refine ⟨.idle, s.mem, ?_⟩
  obtain ⟨t, h⟩ := exec_next (.iofenceC av wsi pr pw data addr) s
  rw [h, ← iofenceAddress_eq_append]
  obtain ⟨rfl, rfl⟩ | ⟨rfl, hfail, rfl⟩ | ⟨rfl, hworks, rfl⟩ := exec_iofenceC_cases h
  · rw [fenceInterrupt_eq]
    rfl
  · simp only [hfail, Bool.true_eq_false, if_false, if_true]
    rfl
  · simp only [hworks, Bool.true_eq_false, Bool.false_eq_true, if_false]
    rw [fenceInterrupt_eq, State.fenceWrite, leBytes_four_setWidth]
    rfl

/-- Neither the interrupt of a fence nor the advance of the head touches memory. -/
theorem fenceInterrupt_retire_mem (wsi : Bool) (s : State) : (fenceInterrupt wsi s).retire.mem = s.mem := by
  rw [fenceInterrupt_eq]
  rfl

/-- Settles O4: only the fence whose write works stores, and it stores the bytes of its data. -/
theorem fenceStoresOnlyItsBytes : Obligations.FenceStoresOnlyItsBytes := by
  intro av wsi pr pw data addr s t hwf h
  obtain ⟨rfl, rfl⟩ | ⟨rfl, hfail, rfl⟩ | ⟨rfl, hworks, rfl⟩ := exec_iofenceC_cases h
  · rw [fenceInterrupt_retire_mem]
    exact ⟨fun _ _ => rfl, fun _ => rfl, fun hav => by cases hav⟩
  · refine ⟨fun _ _ => rfl, fun _ => rfl, fun _ hworks => ?_⟩
    rw [hfail] at hworks
    cases hworks
  · rw [fenceInterrupt_retire_mem]
    refine ⟨fun x hx => Memory.at_store_outside hwf _ _ x hx, fun hnone => ?_, fun _ _ => ?_⟩
    · simp [hworks] at hnone
    · calc (s.mem.store (iofenceAddress addr) (leBytes 4 (data.setWidth 64))).word32 (iofenceAddress addr)
          = (data.setWidth 64).extractLsb' 0 32 := Memory.word32_store_leBytes hwf _ _
        _ = data := by rw [← BitVec.setWidth_eq_extractLsb' (by decide)]; simp

/-! ## The three ends of a command (R374) -/

/-- The operands are illegal (30_encoding.md R166), or the command needs ATS and `CAP` has none (R370). -/
abbrev IllegalIn (i : Instr) (s : State) : Prop := i.wf = false ∨ (isAtsCommand i = true ∧ s.params.cap.ats = false)

/-- The end of the command `i` in `t` is the one of the three that its case asks for. -/
def EndsThreeWays (i : Instr) (s t : State) : Prop :=
  if IllegalIn i s then t.cq = { s.cq with cmdIll := true } ∧ t.trace = .signal .cq :: s.trace
  else if fenceFails i s.failing = true then
    t.cq = { s.cq with cmdMf := true } ∧ t.trace.head? = some (.signal .cq)
  else t.cq = { s.cq with head := (s.cq.head + 1) % s.cq.size, fenceWIp := t.cq.fenceWIp }

section
variable {i : Instr} {s t : State}

theorem EndsThreeWays.illegal (hi : IllegalIn i s) : EndsThreeWays i s s.stopIllegal := by
  rw [EndsThreeWays, if_pos hi]
  exact ⟨rfl, rfl⟩

theorem EndsThreeWays.memFault {u : State} (hi : ¬ IllegalIn i s) (hf : fenceFails i s.failing = true) (hu : u.cq = s.cq) :
    EndsThreeWays i s u.stopMemFault := by
  rw [EndsThreeWays, if_neg hi, if_pos hf, State.stopMemFault_cq, hu]
  exact ⟨rfl, rfl⟩

theorem EndsThreeWays.completes (hi : ¬ IllegalIn i s) (hf : fenceFails i s.failing = false)
    (hcq : t.cq = { s.cq with head := (s.cq.head + 1) % s.cq.size, fenceWIp := t.cq.fenceWIp }) : EndsThreeWays i s t := by
  rw [EndsThreeWays, if_neg hi, if_neg (by simp [hf])]
  exact hcq

/-- A command that is no ATS command is legal where its operands are. -/
theorem not_illegalIn_of_not_ats (hats : isAtsCommand i = false) (hwf : i.wf = true) : ¬ IllegalIn i s := by
  simp [IllegalIn, hats, hwf]

/-- The operands of an ATS command are always legal. -/
theorem illegalIn_iff_of_ats (hats : isAtsCommand i = true) (hwf : i.wf = true) :
    IllegalIn i s ↔ s.params.cap.ats = false := by
  simp [IllegalIn, hats, hwf]

theorem sendAts_endsThreeWays {kind : AtsKind} {pid : BitVec 20} {pv dsv : Bool} {rid : BitVec 16} {dseg : BitVec 8}
    {payload : Word} (hats : isAtsCommand i = true) (hwf : i.wf = true) (hf : fenceFails i s.failing = false)
    (h : sendAts kind pid pv dsv rid dseg payload s = .next t) : EndsThreeWays i s t := by
  by_cases hcap : s.params.cap.ats = false
  · rw [sendAts_of_no_ats hcap] at h
    cases h
    exact .illegal ((illegalIn_iff_of_ats hats hwf).2 hcap)
  · rw [sendAts_of_ats (by simpa using hcap)] at h
    cases h
    exact .completes (mt (illegalIn_iff_of_ats hats hwf).1 hcap) hf rfl

theorem exec_endsThreeWays (h : exec i s = .next t) : EndsThreeWays i s t := by
  cases i with
  | iotinvalVma => cases h; exact .completes (not_illegalIn_of_not_ats rfl rfl) rfl rfl
  | iotinvalGvma av pscid pscv gv gscid addr =>
    cases pscv with
    | true => cases h; exact .illegal (.inl rfl)
    | false => cases h; exact .completes (not_illegalIn_of_not_ats rfl rfl) rfl rfl
  | iofenceC av wsi pr pw data addr =>
    have hlegal : ¬ IllegalIn (.iofenceC av wsi pr pw data addr) s :=
      not_illegalIn_of_not_ats rfl rfl
    obtain ⟨rfl, rfl⟩ | ⟨rfl, hfail, rfl⟩ | ⟨rfl, hworks, rfl⟩ := exec_iofenceC_cases h
    · refine .completes hlegal rfl ?_
      rw [fenceInterrupt_eq]
      rfl
    · exact .memFault hlegal hfail rfl
    · refine .completes hlegal hworks ?_
      rw [fenceInterrupt_eq]
      rfl
  | iodirInvalDdt => cases h; exact .completes (not_illegalIn_of_not_ats rfl rfl) rfl rfl
  | iodirInvalPdt pid dv did =>
    cases dv with
    | true => cases h; exact .completes (not_illegalIn_of_not_ats rfl rfl) rfl rfl
    | false => cases h; exact .illegal (.inl rfl)
  | atsInval => exact sendAts_endsThreeWays rfl rfl rfl h
  | atsPrgr => exact sendAts_endsThreeWays rfl rfl rfl h

end

/-- Settles O10: every command answers a next state, and that ends in one of the three ways. -/
theorem commandsEndThreeWays : Obligations.CommandsEndThreeWays := by
  intro i s
  obtain ⟨t, h⟩ := exec_next i s
  exact ⟨t, h, exec_endsThreeWays h⟩

/-! ## The frame of the commands -/

/-- What every command leaves unchanged, whatever its opcode. -/
structure CommandUnchanged (s t : State) : Prop where
  only : t = { s with
    mem := t.mem, ctxCache := t.ctxCache, iotlb := t.iotlb, cq := t.cq, thread := t.thread, trace := t.trace }
  trace : ∃ l, t.trace = l ++ s.trace
  queue : t.cq.base = s.cq.base ∧ t.cq.size = s.cq.size ∧ t.cq.tail = s.cq.tail ∧ t.cq.state = s.cq.state
  ctxCache : t.ctxCache.pinned = s.ctxCache.pinned ∧ t.ctxCache.current.number = s.ctxCache.current.number ∧
    t.ctxCache.current.entries.map CtxEntry.ctx = s.ctxCache.current.entries.map CtxEntry.ctx
  iotlb : t.iotlb.pinned = s.iotlb.pinned ∧ t.iotlb.current.number = s.iotlb.current.number ∧
    t.iotlb.current.entries.map TlbEntry.invalidate = s.iotlb.current.entries.map TlbEntry.invalidate

namespace CommandUnchanged

variable {s t u : State}

theorem trans (h : CommandUnchanged s t) (k : CommandUnchanged t u) : CommandUnchanged s u where
  only := by rw [k.only, h.only]
  trace := by
    obtain ⟨l, hl⟩ := h.trace
    obtain ⟨l', hl'⟩ := k.trace
    exact ⟨l' ++ l, by rw [hl', hl, List.append_assoc]⟩
  queue := by
    obtain ⟨hbase, hsize, htail, hstate⟩ := h.queue
    obtain ⟨kbase, ksize, ktail, kstate⟩ := k.queue
    exact ⟨kbase.trans hbase, ksize.trans hsize, ktail.trans htail, kstate.trans hstate⟩
  ctxCache := by
    obtain ⟨hpinned, hnumber, hkeys⟩ := h.ctxCache
    obtain ⟨kpinned, knumber, kkeys⟩ := k.ctxCache
    exact ⟨kpinned.trans hpinned, knumber.trans hnumber, kkeys.trans hkeys⟩
  iotlb := by
    obtain ⟨hpinned, hnumber, hkeys⟩ := h.iotlb
    obtain ⟨kpinned, knumber, kkeys⟩ := k.iotlb
    exact ⟨kpinned.trans hpinned, knumber.trans hnumber, kkeys.trans hkeys⟩

theorem emit (s : State) (o : Output) : CommandUnchanged s (s.emit o) :=
  ⟨rfl, ⟨[o], rfl⟩, ⟨rfl, rfl, rfl, rfl⟩, ⟨rfl, rfl, rfl⟩, ⟨rfl, rfl, rfl⟩⟩

theorem retire (s : State) : CommandUnchanged s s.retire :=
  ⟨rfl, ⟨[], rfl⟩, ⟨rfl, rfl, rfl, rfl⟩, ⟨rfl, rfl, rfl⟩, ⟨rfl, rfl, rfl⟩⟩

theorem stopIllegal (s : State) : CommandUnchanged s s.stopIllegal :=
  ⟨rfl, ⟨[_], rfl⟩, ⟨rfl, rfl, rfl, rfl⟩, ⟨rfl, rfl, rfl⟩, ⟨rfl, rfl, rfl⟩⟩

theorem stopMemFault (s : State) : CommandUnchanged s s.stopMemFault :=
  ⟨rfl, ⟨[_], rfl⟩, ⟨rfl, rfl, rfl, rfl⟩, ⟨rfl, rfl, rfl⟩, ⟨rfl, rfl, rfl⟩⟩

theorem fenceInterrupt (wsi : Bool) (s : State) : CommandUnchanged s (fenceInterrupt wsi s) := by
  rw [fenceInterrupt_eq]
  exact ⟨rfl, ⟨_, rfl⟩, ⟨rfl, rfl, rfl, rfl⟩, ⟨rfl, rfl, rfl⟩, ⟨rfl, rfl, rfl⟩⟩

theorem memWrite {a : Word} {bs : List Byte} {ok : Bool} (hw : s.memWrite a bs = (u, ok)) : CommandUnchanged s u := by
  obtain ⟨-, -, rfl⟩ | ⟨-, -, rfl⟩ := State.memWrite_cases hw
  all_goals exact ⟨rfl, ⟨[_], rfl⟩, ⟨rfl, rfl, rfl, rfl⟩, ⟨rfl, rfl, rfl⟩, ⟨rfl, rfl, rfl⟩⟩

/-- An invalidation keeps the entries, but for their valid bits. -/
theorem invalTlb (s : State) (scope : Scope) : CommandUnchanged s (s.invalTlb scope) := by
  have hentry (e : TlbEntry) : (if scope.covers e then e.invalidate else e).invalidate = e.invalidate := by
    rw [TlbEntry.ite_invalidate]
    rfl
  refine ⟨rfl, ⟨[], rfl⟩, ⟨rfl, rfl, rfl, rfl⟩, ⟨rfl, rfl, rfl⟩, ⟨rfl, rfl, ?_⟩⟩
  simp only [State.invalTlb_iotlb, Cache.setEntries_entries, List.map_map, Function.comp_def, hentry]

/-- An invalidation keeps the contexts. -/
theorem invalCtx (s : State) (which : CtxEntry → Bool) : CommandUnchanged s (s.invalCtx which) := by
  have hentry (e : CtxEntry) : (if which e then e.invalidate else e).ctx = e.ctx := by rw [CtxEntry.ite_invalidate]
  refine ⟨rfl, ⟨[], rfl⟩, ⟨rfl, rfl, rfl, rfl⟩, ⟨rfl, rfl, ?_⟩, ⟨rfl, rfl, rfl⟩⟩
  simp only [State.invalCtx_ctxCache, Cache.setEntries_entries, List.map_map, Function.comp_def, hentry]

end CommandUnchanged

theorem CommandEnd.frame {s t : State} (h : CommandEnd s t) : CommandUnchanged s t := by
  cases h with
  | illegal => exact .stopIllegal s
  | invalTlb scope => exact (CommandUnchanged.invalTlb s scope).trans (.retire _)
  | invalCtx which => exact (CommandUnchanged.invalCtx s which).trans (.retire _)
  | atsEvent => exact (CommandUnchanged.emit s _).trans (.retire _)
  | fence wsi => exact (CommandUnchanged.fenceInterrupt wsi s).trans (.retire _)
  | fenceWrite wsi hw => exact ((CommandUnchanged.memWrite hw).trans (.fenceInterrupt wsi _)).trans (.retire _)
  | fenceFault hw => exact (CommandUnchanged.memWrite hw).trans (.stopMemFault _)

/-- What only some opcodes change: memory and the fence's bits, the IOTLB, and the context cache. -/
structure OpcodeFrame (op : BitVec 10) (s t : State) : Prop where
  fence : op ≠ 0x002#10 → t.mem = s.mem ∧ t.cq.fenceWIp = s.cq.fenceWIp ∧ t.cq.cmdMf = s.cq.cmdMf
  iotlb : op ≠ 0x001#10 → op ≠ 0x081#10 → t.iotlb = s.iotlb
  ctxCache : op ≠ 0x003#10 → op ≠ 0x083#10 → t.ctxCache = s.ctxCache

theorem OpcodeFrame.stopIllegal (op : BitVec 10) (s : State) : OpcodeFrame op s s.stopIllegal :=
  ⟨fun _ => ⟨rfl, rfl, rfl⟩, fun _ _ => rfl, fun _ _ => rfl⟩

theorem sendAts_opcodeFrame {kind : AtsKind} {pid : BitVec 20} {pv dsv : Bool} {rid : BitVec 16} {dseg : BitVec 8}
    {payload : Word} {s t : State} (h : sendAts kind pid pv dsv rid dseg payload s = .next t) (op : BitVec 10) :
    OpcodeFrame op s t := by
  unfold sendAts at h
  split at h <;> cases h
  · exact ⟨fun _ => ⟨rfl, rfl, rfl⟩, fun _ _ => rfl, fun _ _ => rfl⟩
  · exact .stopIllegal op s

theorem exec_opcodeFrame {i : Instr} {s t : State} (h : exec i s = .next t) : OpcodeFrame (opcodeOf i) s t := by
  cases i with
  | iotinvalVma => cases h; exact ⟨fun _ => ⟨rfl, rfl, rfl⟩, fun hne => absurd rfl hne, fun _ _ => rfl⟩
  | iotinvalGvma av pscid pscv gv gscid addr =>
    cases pscv with
    | true => cases h; exact .stopIllegal _ s
    | false => cases h; exact ⟨fun _ => ⟨rfl, rfl, rfl⟩, fun _ hne => absurd rfl hne, fun _ _ => rfl⟩
  | iofenceC av wsi pr pw data addr =>
    obtain ⟨-, rfl⟩ | ⟨-, -, rfl⟩ | ⟨-, -, rfl⟩ := exec_iofenceC_cases h
    · rw [fenceInterrupt_eq]; exact ⟨fun hne => absurd rfl hne, fun _ _ => rfl, fun _ _ => rfl⟩
    · exact ⟨fun hne => absurd rfl hne, fun _ _ => rfl, fun _ _ => rfl⟩
    · rw [fenceInterrupt_eq]; exact ⟨fun hne => absurd rfl hne, fun _ _ => rfl, fun _ _ => rfl⟩
  | iodirInvalDdt => cases h; exact ⟨fun _ => ⟨rfl, rfl, rfl⟩, fun _ _ => rfl, fun hne => absurd rfl hne⟩
  | iodirInvalPdt pid dv did =>
    cases dv with
    | true => cases h; exact ⟨fun _ => ⟨rfl, rfl, rfl⟩, fun _ _ => rfl, fun _ hne => absurd rfl hne⟩
    | false => cases h; exact .stopIllegal _ s
  | atsInval => exact sendAts_opcodeFrame h _
  | atsPrgr => exact sendAts_opcodeFrame h _

/-- Settles O11: the frame of the seven ends of `CommandEnd`, and what the opcode rules out. -/
theorem commandFrame : Obligations.CommandFrame := by
  intro i s t h
  obtain ⟨honly, htrace, hqueue, ⟨hctxPinned, hctxNumber, hctxKeys⟩, htlbPinned, htlbNumber, htlbKeys⟩ :=
    (exec_end h).frame
  obtain ⟨hfence, hiotlb, hctxCache⟩ := exec_opcodeFrame h
  exact ⟨honly, htrace, hqueue, hfence, hiotlb, hctxCache, hctxPinned, htlbPinned, hctxNumber, htlbNumber,
    hctxKeys, htlbKeys⟩

/-! ## The command loop (R360, R366, R367) -/

/-- The queue runs in the states that R360 asks for. -/
theorem CmdQueue.runnable_iff (q : CmdQueue) :
    q.runnable = true ↔ q.state = .on ∧ q.cmdIll = false ∧ q.cmdMf = false ∧ q.tail ≠ q.head := by
  simp [CmdQueue.runnable, and_assoc]

/-- A step performs the first move of the schedule. -/
theorem step_of_schedule {s : State} {m : Move} {rest : List Move} (h : s.schedule = m :: rest) :
    step s = perform m { s with schedule := rest } := by
  rw [step, stepMove, h]

theorem threadStep_of_commands {s : State} (h : s.thread = .commands) : threadStep s = commandStep s := by
  rw [threadStep, h]

theorem threadStep_of_idle {s : State} (h : s.thread = .idle) : threadStep s = actionStep s := by
  rw [threadStep, h]

/-- The background thread, inside the loop, makes the next move: the schedule says so, or it is empty and the thread has
work. -/
theorem step_of_commands {s : State} {rest : List Move}
    (hsched : s.schedule = .thread :: rest ∨ (s.schedule = [] ∧ rest = [])) (hth : s.thread = .commands) :
    step s = commandStep { s with schedule := rest } := by
  obtain hsched | ⟨hsched, rfl⟩ := hsched
  · rw [step_of_schedule hsched]
    exact threadStep_of_commands hth
  · have hself : ({ s with schedule := [] } : State) = s := by rw [← hsched]
    have hmove : s.defaultMove = .thread := by simp [State.defaultMove, State.threadBusy, hth]
    rw [hself, step, stepMove, hsched, hmove]
    exact threadStep_of_commands hth

/-- One dword of a structure as its reader takes it, with the words of the statements. -/
theorem State.readLatched_eq_earlyOrNow (s : State) (latches : List Latch) (a : Word) :
    s.readLatched latches a = earlyOrNow s latches a := rfl

/-- Without dwords read early, memory's are taken. -/
theorem earlyOrNow_nil_of_works {s : State} {a : Word} (h : accessFails s.failing .read a 8 = false) :
    earlyOrNow s [] a = some (s.mem.dword a) := if_neg (by simp [h])

/-- A command is the two dwords from the head's address up, or fails where either does. -/
theorem State.fetchCommand_eq (s : State) :
    s.fetchCommand = (earlyOrNow s s.cmdLatches s.commandAddr).bind fun d0 =>
      (earlyOrNow s s.cmdLatches (s.commandAddr + 8)).map fun d1 => [d0, d1] := by
  rw [State.fetchCommand, State.readDwords, State.readDwords, State.readDwords]
  simp only [State.readLatched_eq_earlyOrNow]
  cases earlyOrNow s s.cmdLatches s.commandAddr <;> cases earlyOrNow s s.cmdLatches (s.commandAddr + 8) <;> rfl

section
variable {s : State}

/-- The state after the read of a command that succeeds or fails as `ok` says. -/
theorem State.afterFetch_eq {ok : Bool} (h : s.fetchCommand.isSome = ok) :
    s.afterFetch = { s with cmdLatches := [], trace := .access .read s.commandAddr 16 ok :: s.trace } := by
  rw [State.afterFetch, h]
  rfl

theorem State.fetchCommand_of_read {d0 d1 : Word} (h0 : earlyOrNow s s.cmdLatches s.commandAddr = some d0)
    (h1 : earlyOrNow s s.cmdLatches (s.commandAddr + 8) = some d1) : s.fetchCommand = some [d0, d1] := by
  rw [State.fetchCommand_eq, h0, h1]
  rfl

theorem State.fetchCommand_of_failed_read
    (h : earlyOrNow s s.cmdLatches s.commandAddr = none ∨ earlyOrNow s s.cmdLatches (s.commandAddr + 8) = none) :
    s.fetchCommand = none := by
  rw [State.fetchCommand_eq]
  obtain h0 | h1 := h
  · rw [h0]; rfl
  · rw [h1]; exact Option.bind_eq_none_iff.2 fun _ _ => rfl

/-- A queue that does not run is left. -/
theorem commandStep_of_not_runnable (hrun : ¬ s.cq.runnable = true) : commandStep s = .next s.leaveLoop := if_neg hrun

/-- A failed read of either dword stops the queue. -/
theorem commandStep_of_failed_read (hrun : s.cq.runnable = true)
    (hread : earlyOrNow s s.cmdLatches s.commandAddr = none ∨ earlyOrNow s s.cmdLatches (s.commandAddr + 8) = none) :
    commandStep s = .next (State.stopMemFault
      { s with cmdLatches := [], trace := .access .read s.commandAddr 16 false :: s.trace }) := by
  have hfetch := State.fetchCommand_of_failed_read hread
  rw [commandStep, if_pos hrun, hfetch, State.afterFetch_eq (ok := false) (by rw [hfetch]; rfl)]

variable {d0 d1 : Word} (hrun : s.cq.runnable = true) (h0 : earlyOrNow s s.cmdLatches s.commandAddr = some d0)
  (h1 : earlyOrNow s s.cmdLatches (s.commandAddr + 8) = some d1)
include hrun h0 h1

/-- Two dwords that hold a command: it is run. -/
theorem commandStep_of_command {i : Instr} (hdec : decode d0 d1 = .instr i) :
    commandStep s = exec i { s with cmdLatches := [], trace := .access .read s.commandAddr 16 true :: s.trace } := by
  have hfetch := State.fetchCommand_of_read h0 h1
  rw [← State.afterFetch_eq (ok := true) (by rw [hfetch]; rfl), commandStep, if_pos hrun, hfetch]
  simp only [List.getD_cons_zero, List.getD_cons_succ, hdec]

/-- Two dwords that hold no command stop the queue. -/
theorem commandStep_of_unknown {why : DecodeReject} (hdec : decode d0 d1 = .reject why) :
    commandStep s = .next (State.stopIllegal
      { s with cmdLatches := [], trace := .access .read s.commandAddr 16 true :: s.trace }) := by
  have hfetch := State.fetchCommand_of_read h0 h1
  rw [← State.afterFetch_eq (ok := true) (by rw [hfetch]; rfl), commandStep, if_pos hrun, hfetch]
  simp only [List.getD_cons_zero, List.getD_cons_succ, hdec]

end

/-! ### The 16 bytes of a command in memory -/

/-- An access fails exactly if one of the two parts it is cut into fails. -/
theorem accessFails_add (ranges : List FailRange) (dir : Dir) (a : Word) (m n : Nat) :
    accessFails ranges dir a (m + n) =
      (accessFails ranges dir a m || accessFails ranges dir (a + BitVec.ofNat 64 m) n) := by
  have haddr (i : Nat) : a + BitVec.ofNat 64 (m + i) = a + BitVec.ofNat 64 m + BitVec.ofNat 64 i := by
    rw [BitVec.ofNat_add, BitVec.add_assoc]
  simp only [accessFails, List.range_add, List.any_append, List.any_map, Function.comp_def, haddr]

/-- Sixteen bytes of memory hold the command of the two dwords there. -/
theorem decodeBytes_memory (m : Memory) (a : Word) :
    decodeBytes ((List.range 16).map fun k => m.at (a + BitVec.ofNat 64 k)) = decode (m.dword a) (m.dword (a + 8)) := by
  refine congrArg₂ decode ?_ ?_ <;> simp [Memory.dword, BitVec.add_assoc]

/-! ### Reading a dword early (20_memory.md R87) -/

/-- A dword read early is recorded once. -/
theorem latchDword_eq (s : State) (latches : List Latch) (a : Word) (n k : Nat) :
    latchDword s latches a n k =
      if k < n ∧ (∀ l ∈ latches, l.addr ≠ a + BitVec.ofNat 64 (8 * k)) then
        { addr := a + BitVec.ofNat 64 (8 * k), value := earlyOrNow s [] (a + BitVec.ofNat 64 (8 * k)) } :: latches
      else latches := by
  have hnew : (latches.all fun l => l.addr != a + BitVec.ofNat 64 (8 * k)) = true ↔
      ∀ l ∈ latches, l.addr ≠ a + BitVec.ofNat 64 (8 * k) := by simp
  simp only [latchDword, hnew]
  rfl

theorem latchCommand_of_running {s : State} (hth : s.thread = .commands) (hrun : s.cq.runnable = true) (k : Nat) :
    latchCommand k s = { s with cmdLatches := latchDword s s.cmdLatches s.commandAddr 2 k } := if_pos ⟨hth, hrun⟩

/-! ### The steps of the loop -/

/-- Settles O15: the dwords at the head are decoded and run, memory's and those read early alike. -/
theorem stepRunsDecodedCommand : Obligations.StepRunsDecodedCommand := by
  have hread (i : Instr) (s : State) (rest : List Move) (d0 d1 : Word)
      (hsched : s.schedule = .thread :: rest ∨ (s.schedule = [] ∧ rest = [])) (hth : s.thread = .commands)
      (hrun : s.cq.runnable = true) (h0 : earlyOrNow s s.cmdLatches s.commandAddr = some d0)
      (h1 : earlyOrNow s s.cmdLatches (s.commandAddr + 8) = some d1) (hdec : decode d0 d1 = .instr i) :
      step s = exec i { s with
        schedule := rest, cmdLatches := [], trace := .access .read s.commandAddr 16 true :: s.trace } :=
    (step_of_commands hsched hth).trans (commandStep_of_command (s := { s with schedule := rest }) hrun h0 h1 hdec)
  refine ⟨?_, ?_, ?_⟩
  · intro i s rest hsched hth hlatches hon hill hmf hne hworks hdec
    have hrun := (CmdQueue.runnable_iff s.cq).2 ⟨hon, hill, hmf, hne⟩
    obtain ⟨hworks0, hworks1⟩ := Bool.or_eq_false_iff.1 ((accessFails_add _ _ _ 8 8).symm.trans hworks)
    rw [decodeBytes_memory] at hdec
    rw [hread i s rest _ _ hsched hth hrun (hlatches ▸ earlyOrNow_nil_of_works hworks0)
      (hlatches ▸ earlyOrNow_nil_of_works hworks1) hdec, ← hlatches]
    rfl
  · intro i s rest d0 d1 hsched hth hon hill hmf hne a h0 h1 hdec
    rw [decodeBytes_leDwords] at hdec
    exact hread i s rest d0 d1 hsched hth ((CmdQueue.runnable_iff s.cq).2 ⟨hon, hill, hmf, hne⟩) h0 h1 hdec
  · intro s rest k hsched hth hon hill hmf hne a
    have hrun := (CmdQueue.runnable_iff s.cq).2 ⟨hon, hill, hmf, hne⟩
    have hlatch := latchCommand_of_running (s := { s with schedule := rest }) hth hrun k
    rw [latchDword_eq] at hlatch
    rw [step_of_schedule hsched]
    exact congrArg Host.Outcome.next hlatch

/-- Settles O16: dwords with an unknown opcode are rejected (R166), and a failed read stops the queue. -/
theorem commandLoopStops : Obligations.CommandLoopStops := by
  intro s rest hsched hth hon hill hmf hne a
  have hrun := (CmdQueue.runnable_iff s.cq).2 ⟨hon, hill, hmf, hne⟩
  rw [step_of_commands hsched hth]
  refine ⟨fun d0 d1 h0 h1 hop => ⟨.idle, ?_⟩, fun hread => ⟨.idle, ?_⟩⟩
  · exact commandStep_of_unknown (s := { s with schedule := rest }) hrun h0 h1 (decode_of_unknown hop d1)
  · exact commandStep_of_failed_read (s := { s with schedule := rest }) hrun hread

/-- Settles O17: such a queue does not run, so the loop is left. -/
theorem stoppedQueueReadsNothing : Obligations.StoppedQueueReadsNothing := by
  intro s rest hsched hth hstop
  have hrun : ¬ s.cq.runnable = true := by
    intro hrun
    obtain ⟨hon, hill, hmf, hne⟩ := (CmdQueue.runnable_iff s.cq).1 hrun
    simp [hon, hill, hmf, hne] at hstop
  exact (step_of_commands (.inl hsched) hth).trans (commandStep_of_not_runnable (s := { s with schedule := rest }) hrun)

/-! ## The pending actions (R373, R390, 60_exceptions.md R437) -/

section
variable {s : State}

theorem actionStep_of_ddtp {d : Ddtp} (h : s.pending.ddtp = some d) :
    actionStep s = .next { s with ddtp := d, pending := { s.pending with ddtp := none } } := by
  rw [actionStep, h]

variable (hddtp : s.pending.ddtp = none)
include hddtp

theorem actionStep_of_cqControl {enable : Bool} (h : s.pending.cqControl = some enable) :
    actionStep s = .next (cqControlStep enable s) := by
  rw [actionStep, hddtp, h]

variable (hcq : s.pending.cqControl = none)
include hcq

theorem actionStep_of_cqTail (h : s.pending.cqTail = true) :
    actionStep s = .next { s with thread := .commands, pending := { s.pending with cqTail := false } } := by
  simp only [actionStep, hddtp, hcq, h, if_true]

variable (htail : s.pending.cqTail = false)
include htail

theorem actionStep_of_fqControl {enable : Bool} (h : s.pending.fqControl = some enable) :
    actionStep s = .next { s with fq := s.fq.control enable, pending := { s.pending with fqControl := none } } := by
  simp only [actionStep, hddtp, hcq, htail, h, Bool.false_eq_true, if_false]

variable (hfq : s.pending.fqControl = none)
include hfq

theorem actionStep_of_pqControl {enable : Bool} (h : s.pending.pqControl = some enable) :
    actionStep s = .next { s with pq := s.pq.control enable, pending := { s.pending with pqControl := none } } := by
  simp only [actionStep, hddtp, hcq, htail, hfq, h, Bool.false_eq_true, if_false]

/-- Below all other actions stands the debug request; without it the thread stays blocked. -/
theorem actionStep_of_last (h : s.pending.pqControl = none) :
    actionStep s = if s.pending.debug = true then .refused .debugTranslation else .next s := by
  simp only [actionStep, hddtp, hcq, htail, hfq, h, Bool.false_eq_true, if_false]

end

/-- Settles O20: one equation of `actionStep` for each rank of the priority order. -/
theorem actionPriority : Obligations.ActionPriority := by
  intro s rest hsched hidle
  have hstep : step s = actionStep { s with schedule := rest } :=
    (step_of_schedule hsched).trans (threadStep_of_idle (s := { s with schedule := rest }) hidle)
  rw [hstep]
  refine ⟨fun d h => actionStep_of_ddtp h, fun hddtp => ⟨fun e h => ?_, fun hcq => ⟨fun h => ?_, fun htail =>
    ⟨fun e h => ?_, fun hfq => ⟨fun e h => ?_, fun h => ?_⟩⟩⟩⟩⟩
  · obtain ⟨q, c, heq⟩ := cqControlStep_state e { s with schedule := rest }
    exact ⟨q, c, (actionStep_of_cqControl (s := { s with schedule := rest }) hddtp h).trans (congrArg _ heq)⟩
  · exact actionStep_of_cqTail hddtp hcq h
  · exact ⟨_, actionStep_of_fqControl (s := { s with schedule := rest }) hddtp hcq htail h⟩
  · exact ⟨_, actionStep_of_pqControl (s := { s with schedule := rest }) hddtp hcq htail hfq h⟩
  · exact actionStep_of_last hddtp hcq htail hfq h

/-- The first move of enabling clears the command queue (R390). -/
theorem cqControlStep_enable_of_disabled {s : State} (h : s.cq.state = .disabled) :
    cqControlStep true s = { s with
      cq := { s.cq with
        state := .enabling, head := 0, tail := 0, cmdIll := false, cmdMf := false, fenceWIp := false } } := by
  simp only [cqControlStep, h, if_true]

/-- The second move of enabling turns the command queue on and completes the action (R390). -/
theorem cqControlStep_enable_of_enabling {s : State} (h : s.cq.state = .enabling) :
    cqControlStep true s = { s with cq := { s.cq with state := .on }, pending := { s.pending with cqControl := none } } := by
  simp only [cqControlStep, h, if_true]

theorem threadStep_of_cqControl {s : State} {enable : Bool} (hidle : s.thread = .idle) (hddtp : s.pending.ddtp = none)
    (h : s.pending.cqControl = some enable) : threadStep s = .next (cqControlStep enable s) :=
  (threadStep_of_idle hidle).trans (actionStep_of_cqControl hddtp h)

theorem RecQueue.control_enable_of_inactive {q : RecQueue} (h : q.active = false) :
    q.control true = { q with head := 0, tail := 0, overflow := false, memFault := false, active := true } := by
  rw [RecQueue.control, if_pos rfl, if_neg (by simp [h])]

/-- Settles O22: two moves enable the command queue, one disables it; the record queues by cases of `RecQueue.control`. -/
theorem queueControl : Obligations.QueueControl := by
  refine ⟨fun s hidle hddtp hcontrol hstate => ?_, fun s hidle hddtp hcontrol => ?_,
    fun q hoff => RecQueue.control_enable_of_inactive hoff, fun q => rfl,
    fun s e hidle hddtp hcq htail => ⟨fun h => ?_, fun hfq h => ?_⟩⟩
  · refine ⟨cqControlStep true s, threadStep_of_cqControl hidle hddtp hcontrol, ?_⟩
    rw [cqControlStep_enable_of_disabled hstate]
    refine ⟨rfl, (threadStep_of_cqControl (by exact hidle) (by exact hddtp) (by exact hcontrol)).trans ?_⟩
    rw [cqControlStep_enable_of_enabling rfl]
  · exact threadStep_of_cqControl hidle hddtp hcontrol
  · exact (threadStep_of_idle hidle).trans (actionStep_of_fqControl hddtp hcq htail h)
  · exact (threadStep_of_idle hidle).trans (actionStep_of_pqControl hddtp hcq htail hfq h)

end Sys2Proof.Machine

/-! Proofs for 60_exceptions.md: a step of the machine as the step of one request, the report of a failed request, the
words of the records, and the enqueue contract with its overflow. -/

namespace Sys2Proof.Machine

/-! ## The step of a request (R455) -/

/-- The next move of the schedule is that of a request in flight: it takes its step. -/
theorem step_of_advance {s : State} {id : Nat} {rest : List Move} {f : InFlight} (hsched : s.schedule = .advance id :: rest)
    (hin : s.lookupInflight id = some f) : step s = requestStep f { s with schedule := rest } :=
  (step_of_schedule hsched).trans (advance_eq_requestStep (s := { s with schedule := rest }) hin)

theorem requestStep_ending {f : InFlight} {r : Result} (hf : f.progress = .ending r) (s : State) :
    requestStep f s = .next (s.finish f r) := by
  rw [requestStep, hf]

/-! ### What the other agents leave of a request in flight (20_memory.md R93, 43_commands.md R378) -/

/-- No command touches the requests in flight. -/
theorem CommandUnchanged.inflight {s t : State} (h : CommandUnchanged s t) : t.inflight = s.inflight := by rw [h.only]

/-- No move of the background thread does, an invalidation or a fence included. -/
theorem ThreadTurn.inflight {s t : State} (h : ThreadTurn s t) : t.inflight = s.inflight := by
  cases h with
  | command hend => exact hend.frame.inflight
  | cqControl enable =>
    obtain ⟨q, c, heq⟩ := cqControlStep_state enable s
    rw [heq]
  | _ => rfl

theorem softwareStep_inflight (a : SwAction) (s : State) : (softwareStep a s).inflight = s.inflight := by
  cases a with
  | writeDdtp v => dsimp only [softwareStep, writeDdtp]; split <;> rfl
  | configQueue q base size => dsimp only [softwareStep, configQueue]; split <;> cases q <;> rfl
  | controlQueue q enable => cases q <;> rfl
  | writeHead q v => cases q <;> rfl
  | _ => rfl

/-- A step of the request `f` leaves the others in flight as they are. -/
theorem RequestTurn.lookupInflight_other {f : InFlight} {s t : State} (h : RequestTurn f s t) {id : Nat} (hne : id ≠ f.id) :
    t.lookupInflight id = s.lookupInflight id := by
  have hset {u : State} {f' : InFlight} (he : RequestEffect f s u) (hid : f'.id = f.id) :
      (u.setInflight f').lookupInflight id = s.lookupInflight id := by
    rw [State.lookupInflight_setInflight, if_neg (hid ▸ hne), he.lookupInflight]
  cases h with
  | goes he hid => exact hset he hid
  | goesReleasing he hid => exact hset he hid
  | returns => rw [State.lookupInflight_finish, if_neg hne]

theorem advance_lookupInflight_other {s t : State} {id other : Nat} (h : advance other s = .next t) (hne : id ≠ other) :
    t.lookupInflight id = s.lookupInflight id := by
  unfold advance at h
  split at h
  · next f hf =>
    obtain ⟨rfl, -⟩ := State.lookupInflight_some hf
    exact (requestStep_turn h).lookupInflight_other hne
  · cases h; rfl

theorem latchRequest_lookupInflight_other (s : State) {id other : Nat} (k : Nat) (hne : id ≠ other) :
    (latchRequest other k s).lookupInflight id = s.lookupInflight id := by
  unfold latchRequest
  split
  · rfl
  · next f hf =>
    obtain ⟨rfl, -⟩ := State.lookupInflight_some hf
    split
    · rfl
    · rw [State.lookupInflight_setInflight, if_neg hne]

/-- An arriving request stands behind those in flight. -/
theorem arrive_lookupInflight {s : State} {id : Nat} {f : InFlight} (hin : s.lookupInflight id = some f) (devid pid : Nat)
    (iova : Word) (kind : ReqKind) : (arrive devid pid iova kind s).lookupInflight id = some f := by
  by_cases hfits : devid < 2 ^ 24 ∧ pid < 2 ^ 20
  · obtain ⟨hd, hp⟩ := hfits
    rw [arrive_of_fits hd hp]
    exact List.find?_append.trans (Option.or_of_isSome (Option.isSome_of_eq_some hin) |>.trans hin)
  · obtain ⟨why, heq⟩ := arrive_of_wide (by omega : 2 ^ 24 ≤ devid ∨ 2 ^ 20 ≤ pid) iova kind s
    rw [heq]
    exact hin

/-- Only a request's own moves, its early reads and realize change what it has. -/
theorem perform_lookupInflight {m : Move} {s t : State} {id : Nat} {f : InFlight} (h : perform m s = .next t)
    (hin : s.lookupInflight id = some f) (hadvance : m ≠ .advance id) (hlatch : ∀ k, m ≠ .latch id k)
    (hrealize : m ≠ .realize) : t.lookupInflight id = some f := by
  cases m with
  | thread => rw [State.lookupInflight, (threadStep_turn h).inflight]; exact hin
  | latchCommand k =>
    cases h
    obtain ⟨ls, heq⟩ := latchCommand_frame k s
    rw [heq]; exact hin
  | request devid pid iova kind => cases h; exact arrive_lookupInflight hin devid pid iova kind
  | advance other =>
    have hne : id ≠ other := fun hid => hadvance (by rw [hid])
    exact (advance_lookupInflight_other h hne).trans hin
  | latch other k =>
    cases h
    have hne : id ≠ other := fun hid => hlatch k (by rw [hid])
    exact (latchRequest_lookupInflight_other s k hne).trans hin
  | software a => cases h; rw [State.lookupInflight, softwareStep_inflight]; exact hin
  | realize => exact absurd rfl hrealize

/-! ### The dwords of a structure (20_memory.md R87, R88) -/

section
variable {s : State} {id : Nat} {f : InFlight} (hin : s.lookupInflight id = some f)
include hin

/-- A dword of the structure a request reads next, read early, is recorded once. -/
theorem latchRequest_of_structure {a : Word} {n : Nat} (h : pendingStructure s.params f = some (a, n)) (k : Nat) :
    latchRequest id k s = s.setInflight { f with latches :=
      if k < n ∧ (∀ l ∈ f.latches, l.addr ≠ a + BitVec.ofNat 64 (8 * k)) then
        { addr := a + BitVec.ofNat 64 (8 * k), value := earlyOrNow s [] (a + BitVec.ofNat 64 (8 * k)) } :: f.latches
      else f.latches } := by
  rw [← latchDword_eq, latchRequest, hin]
  dsimp only
  rw [h]

/-- A request that reads no structure of several dwords next reads nothing early. -/
theorem latchRequest_of_no_structure (h : pendingStructure s.params f = none) (k : Nat) : latchRequest id k s = s := by
  rw [latchRequest, hin]
  dsimp only
  rw [h]

end

/-- A structure is its dwords one after another; it is read if each of them is. -/
theorem State.readDwords_eq_some_iff (s : State) (latches : List Latch) (a : Word) (n : Nat) (ds : List Word) :
    s.readDwords latches a n = some ds ↔
      ds.length = n ∧ ∀ k, k < n → earlyOrNow s latches (a + BitVec.ofNat 64 (8 * k)) = some (ds.getD k 0) := by
  induction n generalizing a ds with
  | zero => simp [State.readDwords, eq_comm (a := [])]
  | succ n ih =>
    have haddr (k : Nat) : a + BitVec.ofNat 64 (8 * (k + 1)) = a + 8 + BitVec.ofNat 64 (8 * k) := by
      rw [Nat.mul_succ, Nat.add_comm, BitVec.ofNat_add, BitVec.add_assoc]; rfl
    have hread : s.readDwords latches a (n + 1) = some ds ↔
        ∃ d ds', ds = d :: ds' ∧ earlyOrNow s latches a = some d ∧ s.readDwords latches (a + 8) n = some ds' := by
      rw [State.readDwords, State.readLatched_eq_earlyOrNow]
      cases earlyOrNow s latches a <;> cases s.readDwords latches (a + 8) n <;> simp [eq_comm]
    rw [hread]
    cases ds with
    | nil => simp
    | cons d ds => rw [Nat.forall_lt_succ_left]; simp [ih, haddr, and_left_comm]

/-- Settles O23: the links from a step to a request's step, what the other agents leave, and the reads of a structure. -/
theorem stepRunsTheRequest : Obligations.StepRunsTheRequest := by
  refine ⟨fun s id rest f => step_of_advance, ?goesOn, ?returns, fun m s t id f => perform_lookupInflight, ?early,
    State.readDwords_eq_some_iff⟩
  case goesOn =>
    intro s f g p hin
    exact ⟨State.progressOf_goOn_self (Option.isSome_of_eq_some hin) p,
      fun id hne => (State.lookupInflight_goOn s f p id).trans (if_neg hne)⟩
  case returns =>
    intro s f r hf
    exact ⟨s.finish f r, requestStep_ending hf s, (State.lookupInflight_finish s f r f.id).trans (if_pos rfl), rfl, rfl,
      rfl, rfl, rfl, rfl, fun id hne => (State.lookupInflight_finish s f r id).trans (if_neg hne)⟩
  case early =>
    intro s id k rest f hsched hin early
    have hstructure {a : Word} {n : Nat} (h : pendingStructure s.params f = some (a, n)) : step s = .next (early a n) :=
      (step_of_schedule hsched).trans
        (congrArg Host.Outcome.next (latchRequest_of_structure (s := { s with schedule := rest }) hin h k))
    have hnone (h : pendingStructure s.params f = none) : step s = .next { s with schedule := rest } :=
      (step_of_schedule hsched).trans
        (congrArg Host.Outcome.next (latchRequest_of_no_structure (s := { s with schedule := rest }) hin h k))
    cases hprogress : f.progress with
    | resolving ph =>
      cases ph with
      | ddLeaf page => exact hstructure (by rw [pendingStructure, hprogress]; rfl)
      | pdLeaf ctx page => exact hstructure (by rw [pendingStructure, hprogress])
      | _ => exact hnone (by rw [pendingStructure, hprogress])
    | translating ctx ph =>
      cases ph with
      | msiPte gpa ifn data size => exact hstructure (by rw [pendingStructure, hprogress])
      | _ => exact hnone (by rw [pendingStructure, hprogress])
    | ending r => exact hnone (by rw [pendingStructure, hprogress])

/-! ## The report of a failed request (R420, R425) -/

/-- Settles O32: a failed resolution has one report; a later failure has that of its kind of request. -/
theorem failureReport : Obligations.FailureReport := by
  intro f s
  refine ⟨fun cause dtf hf => requestStep_resolving hf s, fun ctx cause gpa2 hf => ?_⟩
  have hstep : requestStep f s = .next ((s.reportTranslation f.req ctx cause gpa2).goOn f (.ending (.fault cause))) :=
    requestStep_translating hf s
  rw [hstep, State.reportTranslation]
  refine ⟨fun hkind => ?_, fun hkind => ?_⟩
  · rw [if_neg (mt ReqKind.isAts_iff.1 hkind)]; rfl
  · rw [if_pos (ReqKind.isAts_iff.2 hkind)]; rfl

/-! ## The words of the records (R410, R421 to R426) -/

theorem Cause.isGuestPage_iff (cause : Cause) :
    cause.isGuestPage = true ↔ cause.code.setWidth 64 = (21 : Word) ∨ cause.code.setWidth 64 = (23 : Word) := by
  cases cause <;> decide

/-- Two fields of a dword: the lower one, or the upper one shifted. -/
theorem setWidth_append_eq_or_shiftLeft {m n : Nat} (hi : BitVec m) (lo : BitVec n) :
    (hi ++ lo).setWidth 64 = lo.setWidth 64 ||| (hi.setWidth 64 <<< n) := by
  rw [BitVec.setWidth_append_eq_shiftLeft_setWidth_or, BitVec.or_comm]

/-- The fields of dword 0 of a fault record, the lowest first (R422). -/
theorem faultHeader_eq (cause : Cause) (r : Request) :
    faultHeader cause r = cause.code.setWidth 64 ||| (r.pid.setWidth 64 <<< 12) |||
      ((BitVec.ofBool (r.pid != 0)).setWidth 64 <<< 32) ||| (0 <<< 33) ||| (r.kind.ttyp.setWidth 64 <<< 34) |||
      (r.devid.setWidth 64 <<< 40) := by
  rw [← BitVec.setWidth_eq (faultHeader cause r), faultHeader]
  simp only [setWidth_append_eq_or_shiftLeft, BitVec.shiftLeft_or_distrib, ← BitVec.shiftLeft_add, BitVec.or_assoc]
  rfl

/-- The fields of a page request's header, the lowest first (R426). -/
theorem pageRequestHeader_eq (r : Request) :
    pageRequestHeader r = (r.pid.setWidth 64 <<< 12) ||| ((BitVec.ofBool (r.pid != 0)).setWidth 64 <<< 32) |||
      (0 <<< 33) ||| (0 <<< 34) ||| (r.devid.setWidth 64 <<< 40) := by
  rw [← BitVec.setWidth_eq (pageRequestHeader r), pageRequestHeader]
  simp only [setWidth_append_eq_or_shiftLeft, BitVec.shiftLeft_or_distrib, ← BitVec.shiftLeft_add, BitVec.or_assoc]
  simp

/-- The page of an address, as a field and as a mask cuts it out. -/
theorem page_shiftLeft_eq_and_not (a : Word) : (a.extractLsb' 12 52).setWidth 64 <<< 12 = a &&& ~~~ (0xFFF : Word) := by
  have happend : a.extractLsb' 12 52 ++ 0#12 = a &&& ~~~ (0xFFF : Word) :=
    FieldAt.eq_dword (FieldAt.append_iff.2 ⟨.kept, .cleared⟩)
  rw [← happend, ← BitVec.setWidth_eq (a.extractLsb' 12 52 ++ 0#12), setWidth_append_eq_or_shiftLeft, BitVec.setWidth_zero,
    BitVec.zero_or]

/-- A page request's payload: the page, and the L, W and R bits (R426). -/
theorem pageRequestPayload_eq (iova : Word) :
    pageRequestPayload iova = (iova &&& ~~~ (0xFFF : Word)) ||| (1 <<< 0) ||| (1 <<< 1) ||| (1 <<< 2) := by
  rw [← BitVec.setWidth_eq (pageRequestPayload iova), pageRequestPayload]
  simp only [setWidth_append_eq_or_shiftLeft, BitVec.shiftLeft_or_distrib, ← BitVec.shiftLeft_add]
  simp only [Nat.reduceAdd, BitVec.setWidth_zero, BitVec.zero_shiftLeft, BitVec.zero_or, page_shiftLeft_eq_and_not]
  change (1 : Word) ||| (2 ||| (4 ||| iova &&& ~~~ 0xFFF)) = iova &&& ~~~ 0xFFF ||| 1 ||| 2 ||| 4
  ac_rfl

/-- Settles O53: the fields are those of the formulas, row by row for the tables of causes and transaction types. -/
theorem recordLayouts : Obligations.RecordLayouts := by
  intro cause r gpa2 pv code ttyp
  have hpv : (BitVec.ofBool (r.pid != 0)).setWidth 64 = pv := by
    simp only [pv]
    split
    · next hpid => rw [hpid]; rfl
    · next hpid => rw [bne_iff_ne.2 hpid]; rfl
  have hcode : cause.code.setWidth 64 = code := by cases cause <;> rfl
  have httyp : r.kind.ttyp.setWidth 64 = ttyp := by
    simp only [ttyp]
    cases r.kind <;> rfl
  rw [faultRecord, faultHeader_eq, pageRequest, pageRequestHeader_eq, pageRequestPayload_eq, ← hcode, ← httyp, ← hpv]
  simp only [Cause.isGuestPage_iff, and_self]

/-! ## The enqueue contract (R431, R432) -/

@[simp] theorem length_leDwords (ds : List Word) : (leDwords ds).length = 8 * ds.length := by
  rw [leDwords, List.length_flatMap, List.map_congr_left (fun d _ => length_leBytes 8 d), List.map_const', List.sum_replicate,
    smul_eq_mul, Nat.mul_comm]

/-- The queue after a record has been stored at its tail (R431). -/
def RecQueue.stored (q : RecQueue) : RecQueue := { q with tail := (q.tail + 1) % q.size, ip := true }

@[simp] theorem RecQueue.stored_size (q : RecQueue) : q.stored.size = q.size := rfl
@[simp] theorem RecQueue.stored_head (q : RecQueue) : q.stored.head = q.head := rfl
@[simp] theorem RecQueue.stored_tail (q : RecQueue) : q.stored.tail = (q.tail + 1) % q.size := rfl

theorem RecQueue.drops_iff (q : RecQueue) :
    q.drops = true ↔ q.active = false ∨ q.memFault = true ∨ q.overflow = true := by
  simp [RecQueue.drops, or_assoc]

theorem RecQueue.full_iff (q : RecQueue) : q.full = true ↔ (q.tail + 1) % q.size = q.head := decide_eq_true_iff

section
variable {q : RecQueue} (int : IntReq) (rec : List Word) (s : State)

theorem enqueue_of_drops (h : q.drops = true) : enqueue q int rec s = (q, s) := if_pos h

theorem enqueue_of_full (hd : ¬ q.drops = true) (hf : q.full = true) :
    enqueue q int rec s = ({ q with overflow := true }, s) := (if_neg hd).trans (if_pos hf)

/-- On a queue with room, the write of the `n` bytes of the record at the tail's address `a` decides. -/
theorem enqueue_of_room {n : Nat} {a : Word} (hn : n = 8 * rec.length) (ha : a = q.base + BitVec.ofNat 64 (q.tail * n))
    (hd : ¬ q.drops = true) (hf : ¬ q.full = true) :
    enqueue q int rec s =
      if accessFails s.failing .write a n = true then
        ({ q with memFault := true }, { s with trace := .access .write a n false :: s.trace })
      else
        (q.stored,
         { s with
           mem := s.mem.store a (leDwords rec)
           trace := (if q.ip = true then [] else [.signal int]) ++ .access .write a n true :: s.trace }) := by
  subst hn
  rw [enqueue, if_neg hd, if_neg hf, ← ha, State.memWrite, length_leDwords]
  by_cases hw : accessFails s.failing .write a (8 * rec.length) = true
  · rw [if_pos hw, if_pos hw]
    rfl
  · rw [if_neg hw, if_neg hw]
    cases q.ip <;> rfl

end

/-- Settles O51, by the branches of `enqueue`; a failed write stores nothing here (log entry 22). -/
theorem enqueueContract : Obligations.EnqueueContract := by
  refine ⟨fun rec s => ⟨rfl, rfl⟩, fun cause r gpa2 => ⟨length_leDwords _, length_leDwords _⟩,
    fun q int rec s => ⟨s.mem, ?_⟩⟩
  dsimp only
  split
  · next hd => exact enqueue_of_drops int rec s (q.drops_iff.2 hd)
  · next hd =>
    have hd := mt q.drops_iff.1 hd
    split
    · next hf => exact enqueue_of_full int rec s hd (q.full_iff.2 hf)
    · next hf => exact enqueue_of_room int rec s rfl rfl hd (mt q.full_iff.1 hf)

/-! ## The overflow (R433) -/

/-- A ring of which one entry always stays empty has the other entries, less those in use, free. -/
theorem RecQueue.free_eq {q : RecQueue} (hhead : q.head < q.size) (htail : q.tail < q.size) :
    q.free = if q.tail < q.head then q.head - q.tail - 1 else q.head + q.size - q.tail - 1 := by
  rw [RecQueue.free]
  split
  · have hwrap : q.head + q.size - q.tail - 1 = q.head - q.tail - 1 + q.size := by omega
    rw [hwrap, Nat.add_mod_right, Nat.mod_eq_of_lt (by omega)]
  · exact Nat.mod_eq_of_lt (by omega)

/-- The index after `i` in a ring. -/
theorem succ_mod_eq {i size : Nat} (h : i < size) : (i + 1) % size = if i + 1 = size then 0 else i + 1 := by
  split
  · next hlast => rw [hlast, Nat.mod_self]
  · exact Nat.mod_eq_of_lt (by omega)

theorem RecQueue.full_iff_free_eq_zero {q : RecQueue} (hhead : q.head < q.size) (htail : q.tail < q.size) :
    q.full = true ↔ q.free = 0 := by
  rw [RecQueue.full_iff, RecQueue.free_eq hhead htail, succ_mod_eq htail]
  split <;> split <;> omega

/-- A record that finds room takes one free entry. -/
theorem RecQueue.free_stored {q : RecQueue} (hhead : q.head < q.size) (htail : q.tail < q.size) (hroom : ¬ q.full = true) :
    q.stored.free + 1 = q.free := by
  have hpos := mt (RecQueue.full_iff_free_eq_zero hhead htail).2 hroom
  have hfree := RecQueue.free_eq hhead htail
  have hfree' := RecQueue.free_eq (q := q.stored) hhead (Nat.mod_lt _ (Nat.zero_lt_of_lt htail))
  rw [RecQueue.stored_head, RecQueue.stored_size, RecQueue.stored_tail, succ_mod_eq htail] at hfree'
  split_ifs at hfree hfree' <;> omega

/-- A queue that drops records stays as it is. -/
theorem enqueueAll_of_drops {q : RecQueue} (h : q.drops = true) (int : IntReq) (recs : List (List Word)) (s : State) :
    enqueueAll int recs (q, s) = (q, s) := by
  induction recs with
  | nil => rfl
  | cons rec recs ih => rw [enqueueAll, enqueue_of_drops int rec s h, ih]

/-- What a sequence of records does to a queue, as R433 counts it: those beyond the free entries set the overflow bit, the
others move the tail. -/
structure FillsRing (q r : RecQueue) (n : Nat) : Prop where
  overflow : r.overflow = true ↔ q.free < n
  head : r.head = q.head
  tail : r.tail = (q.tail + min q.free n) % q.size

namespace FillsRing

variable {q r : RecQueue}

/-- No record at all. -/
theorem refl (hoverflow : q.overflow = false) (htail : q.tail < q.size) : FillsRing q q 0 where
  overflow := by simp [hoverflow]
  head := rfl
  tail := by rw [Nat.min_zero, Nat.add_zero, Nat.mod_eq_of_lt htail]

/-- One record or more on a full ring. -/
theorem of_full (hhead : q.head < q.size) (htail : q.tail < q.size) (hfull : q.full = true) (n : Nat) :
    FillsRing q { q with overflow := true } (n + 1) := by
  have hfree := (RecQueue.full_iff_free_eq_zero hhead htail).1 hfull
  exact ⟨by simp [hfree], rfl, by rw [hfree, Nat.zero_min, Nat.add_zero, Nat.mod_eq_of_lt htail]⟩

/-- One more record, which found room, comes before the others. -/
theorem of_stored {n : Nat} (h : FillsRing q.stored r n) (hhead : q.head < q.size) (htail : q.tail < q.size)
    (hroom : ¬ q.full = true) : FillsRing q r (n + 1) := by
  have hfree := RecQueue.free_stored hhead htail hroom
  refine ⟨by rw [h.overflow, ← hfree, Nat.add_lt_add_iff_right], h.head, ?_⟩
  rw [h.tail, ← hfree, Nat.add_min_add_right, RecQueue.stored_tail, RecQueue.stored_size, Nat.mod_add_mod, Nat.add_assoc,
    Nat.add_comm 1]

end FillsRing

/-- By induction on the records: the first one fills an entry, or finds none and flags the queue, which then drops the
rest. -/
theorem enqueueAll_fillsRing (int : IntReq) (recs : List (List Word)) {q : RecQueue} (s : State) (hactive : q.active = true)
    (hoverflow : q.overflow = false) (hhead : q.head < q.size) (htail : q.tail < q.size)
    (hfault : (enqueueAll int recs (q, s)).1.memFault = false) :
    FillsRing q (enqueueAll int recs (q, s)).1 recs.length := by
  induction recs generalizing q s with
  | nil => exact .refl hoverflow htail
  | cons rec recs ih =>
    rw [enqueueAll] at hfault ⊢
    rcases henq : enqueue q int rec s with ⟨q', s'⟩
    rw [henq] at hfault
    rcases enqueue_cases henq with ⟨hdrops, rfl, -⟩ | ⟨-, hfull, rfl, -⟩ | ⟨-, -, rfl, -⟩ | ⟨-, hroom, rfl, -⟩
    · rw [enqueueAll_of_drops hdrops] at hfault
      have hopen : q'.drops = false := by
        rw [RecQueue.drops, hactive, hoverflow, hfault]; rfl
      rw [hopen] at hdrops
      cases hdrops
    · rw [enqueueAll_of_drops ((RecQueue.drops_iff _).2 (.inr (.inr rfl)))]
      exact .of_full hhead htail hfull recs.length
    · rw [enqueueAll_of_drops ((RecQueue.drops_iff _).2 (.inr (.inl rfl)))] at hfault
      cases hfault
    · have hstored : q.stored.tail < q.stored.size := Nat.mod_lt _ (Nat.zero_lt_of_lt htail)
      exact (ih (q := q.stored) s' hactive hoverflow hhead hstored hfault).of_stored hhead htail (by simp [hroom])

/-- Settles O52: a ring has at most its size less one free entries, and the records fill it. -/
theorem overflowExactlyWhenFull : Obligations.OverflowExactlyWhenFull := by
  intro q int recs s hactive hoverflow hhead htail r hfault
  have hfills := enqueueAll_fillsRing int recs s hactive hoverflow hhead htail hfault
  have hfree : q.free < q.size := Nat.mod_lt _ (Nat.zero_lt_of_lt htail)
  exact ⟨Nat.le_sub_one_of_lt hfree, hfills.overflow, hfills.head, hfills.tail⟩

end Sys2Proof.Machine

/-! Proofs for 70_reset_and_hazards.md: the reset state is sound (R470), and the first request after reset (the spec's own
inference R473). -/

namespace Sys2Proof.Machine

/-! ## The reset state (R470) -/

/-- Nothing is listed, cached, in flight or sent out, and the rings have the reset size with both indices 0. -/
theorem State.Inv.ofParams (p : Params) : (State.ofParams p).Inv := by
  have hring : RingOk 2 0 0 := ⟨by decide, by decide, by decide⟩
  exact ⟨⟨.nil, List.forall_mem_nil _⟩, ⟨.nil, .nil⟩, ⟨List.forall_mem_nil _, List.forall_mem_nil _⟩,
    ⟨hring, hring, hring⟩, ⟨.nil, List.forall_mem_nil _⟩, List.forall_mem_nil _⟩

/-- Settles O56: `State.reset` is the reset state of the suggested parameters. -/
theorem resetIsSound : Obligations.ResetIsSound := ⟨.ofParams Params.suggested, .ofParams⟩

/-! ## The first request after reset (R473)

Nobody else moves, so every state on the way differs from the reset state in the request's own record, in what it has
inserted into the context cache, and in what it has sent out. -/

/-- The first request after reset, which asks `r`, with the generations it pins, at `q`. -/
def firstRequest (r : Request) (ctxGen tlbGen : Option Nat) (q : Progress) : InFlight :=
  { id := 0, req := r, ctxGen, tlbGen, progress := q, latches := [] }

/-- The reset state with `f` alone in flight, which has filled the first context-cache generation with `es` and sent out
`out`. -/
def State.afterReset (p : Params) (es : List CtxEntry) (f : InFlight) (out : List Output) : State :=
  { State.ofParams p with ctxCache := Cache.empty.setEntries es, inflight := [f], nextId := 1, trace := out }

/-- No output of `out` is a memory access. -/
def Quiet (out : List Output) : Prop := ∀ a b c d, Output.access a b c d ∉ out

/-- Alone, the request numbered 0 ends with `res`; memory and the IOTLB are then empty, and memory was never accessed. -/
def EndsQuietly (s : State) (res : Result) : Prop :=
  ∃ n t, runAlone 0 n s = .next t ∧ t.inflight = [] ∧ t.mem = [] ∧ t.iotlb.current.entries = [] ∧
    t.trace.head? = some (.result 0 res) ∧ Quiet t.trace

theorem Quiet.nil : Quiet [] := fun _ _ _ _ => List.not_mem_nil

theorem Quiet.cons {o : Output} {out : List Output} (h : Quiet out) (ho : ∀ a b c d, o ≠ .access a b c d) :
    Quiet (o :: out) :=
  fun a b c d hmem => (List.mem_cons.1 hmem).elim (fun heq => ho a b c d heq.symm) (h a b c d)

theorem Quiet.event {s : State} (h : Quiet s.trace) (f : InFlight) (e : PerfEvent) : Quiet (s.event f e).trace := h.cons nofun

/-- Arriving right after reset, a request whose identifiers fit is the first one. -/
theorem arrive_ofParams {devid pid : Nat} (hd : devid < 2 ^ 24) (hp : pid < 2 ^ 20) (iova : Word) (kind : ReqKind)
    (p : Params) :
    arrive devid pid iova kind (State.ofParams p) =
      .afterReset p [] (firstRequest { devid := BitVec.ofNat 24 devid, pid := BitVec.ofNat 20 pid, iova, kind } none none
        (.resolving .lookup)) [] :=
  arrive_of_fits hd hp iova kind (State.ofParams p)

section
variable {p : Params} {es : List CtxEntry} {r : Request} {ctxGen tlbGen : Option Nat} {q : Progress} {out : List Output}
  {res : Result}

theorem State.lookupInflight_afterReset :
    (State.afterReset p es (firstRequest r ctxGen tlbGen q) out).lookupInflight 0 = some (firstRequest r ctxGen tlbGen q) := rfl

/-- A step of the request alone, then the rest. -/
theorem EndsQuietly.step {t : State}
    (hstep : requestStep (firstRequest r ctxGen tlbGen q) (.afterReset p es (firstRequest r ctxGen tlbGen q) out) = .next t)
    (h : EndsQuietly t res) : EndsQuietly (.afterReset p es (firstRequest r ctxGen tlbGen q) out) res := by
  obtain ⟨n, u, hrun, hend⟩ := h
  rw [← advance_eq_requestStep State.lookupInflight_afterReset] at hstep
  exact ⟨n + 1, u, (runAlone_succ hstep n).trans hrun, hend⟩

theorem EndsQuietly.resolving {ph : CtxPhase}
    (h : EndsQuietly (ctxStep (firstRequest r ctxGen tlbGen (.resolving ph)) ph
      (.afterReset p es (firstRequest r ctxGen tlbGen (.resolving ph)) out)) res) :
    EndsQuietly (.afterReset p es (firstRequest r ctxGen tlbGen (.resolving ph)) out) res :=
  .step (requestStep_resolving rfl _) h

theorem EndsQuietly.translating {ctx : Ctx} {ph : XlatePhase} {t : State}
    (hstep : xlateStep (firstRequest r ctxGen tlbGen (.translating ctx ph)) ctx ph
      (.afterReset p es (firstRequest r ctxGen tlbGen (.translating ctx ph)) out) = .next t) (h : EndsQuietly t res) :
    EndsQuietly (.afterReset p es (firstRequest r ctxGen tlbGen (.translating ctx ph)) out) res :=
  .step ((requestStep_translating rfl _).trans hstep) h

/-- The return of the result. -/
theorem endsQuietly_ending (hout : Quiet out) :
    EndsQuietly (.afterReset p es (firstRequest r ctxGen tlbGen (.ending res)) out) res :=
  ⟨1, (State.afterReset p es (firstRequest r ctxGen tlbGen (.ending res)) out).finish
      (firstRequest r ctxGen tlbGen (.ending res)) res,
    rfl, rfl, rfl, rfl, rfl, hout.cons nofun⟩

/-! ### Mode Off (R204) -/

theorem ctxWalkStep_of_off {f : InFlight} {s : State} (h : s.ddtp.mode = .off) :
    ctxWalkStep f s = s.goOn f (.resolving (.report .allInboundDisallowed false)) := by
  rw [ctxWalkStep, h]
  rfl

/-- The fault queue is not active after reset, so the report writes no record (R431). -/
theorem State.reportContext_afterReset (f : InFlight) (cause : Cause) (dtf : Bool) :
    (State.afterReset p es f out).reportContext r cause dtf = .afterReset p es f out := by
  cases dtf with
  | true => rfl
  | false =>
    have hdrops : (State.afterReset p es f out).fq.drops = true := (RecQueue.drops_iff _).2 (.inl rfl)
    rw [State.reportContext, if_neg (by decide), State.enqueueFq, enqueue_of_drops _ _ _ hdrops]

/-- A failed resolution ends with its cause. -/
theorem endsQuietly_ctxReport (hout : Quiet out) (cause : Cause) (dtf : Bool) :
    EndsQuietly (.afterReset p es (firstRequest r ctxGen tlbGen (.resolving (.report cause dtf))) out) (.fault cause) := by
  refine .resolving ?_
  rw [ctxStep, ctxReportStep, State.reportContext_afterReset]
  exact endsQuietly_ending hout

theorem endsQuietly_walk_off (hmode : p.resetDdtpMode = .off) (hout : Quiet out) :
    EndsQuietly (.afterReset p es (firstRequest r ctxGen tlbGen (.resolving .walk)) out) (.fault .allInboundDisallowed) := by
  have hddtp : (Ddtp.reset p).mode = .off := by rw [Ddtp.reset, hmode]
  refine .resolving ?_
  rw [ctxStep, ctxWalkStep_of_off hddtp]
  exact endsQuietly_ctxReport hout _ _

/-! ### Mode Bare (R205) -/

@[simp] theorem bareCtx_tc (devid : BitVec 24) (pid : BitVec 20) : (bareCtx devid pid).tc = 1 := rfl
@[simp] theorem bareCtx_gatp (devid : BitVec 24) (pid : BitVec 20) : (bareCtx devid pid).gatp = 0 := rfl
@[simp] theorem bareCtx_satp (devid : BitVec 24) (pid : BitVec 20) : (bareCtx devid pid).satp = 0 := rfl
@[simp] theorem bareCtx_msiptp (devid : BitVec 24) (pid : BitVec 20) : (bareCtx devid pid).msiptp = 0 := rfl

theorem ctxWalkStep_of_bare {f : InFlight} {s : State} (h : s.ddtp.mode = .bare) :
    ctxWalkStep f s = s.goOn f (.resolving (.insert (bareCtx f.req.devid f.req.pid))) := by
  rw [ctxWalkStep, h]

/-- The context of mode Bare has `EN_ATS` clear (R205), so the ATS check refuses ATS requests and no others. -/
theorem atsAllowed_bareCtx_iff {devid : BitVec 24} {pid : BitVec 20} {kind : ReqKind} :
    AtsAllowed p (bareCtx devid pid) kind ↔ kind ≠ .ats := by
  simp [AtsAllowed]

/-- The context of mode Bare has its MSI page table Off (R205). -/
theorem msiMatch_bareCtx (devid : BitVec 24) (pid : BitVec 20) (gpa : Word) : msiMatch (bareCtx devid pid) gpa = false := by
  simp [msiMatch]

theorem endsQuietly_xlateLookup_ats (hats : r.kind = .ats) (hout : Quiet out) :
    EndsQuietly (.afterReset p es (firstRequest r ctxGen tlbGen (.translating (bareCtx r.devid r.pid) .lookup)) out)
      (.fault .transactionTypeDisallowed) := by
  have hrefused : ¬ AtsAllowed p (bareCtx r.devid r.pid) r.kind := fun h => atsAllowed_bareCtx_iff.1 h hats
  refine .translating (xlateLookupStep_of_refused hrefused) ?_
  exact endsQuietly_ending hout

/-- With both stages Bare (R205) a request that the ATS check lets pass, and that misses in the IOTLB, gets its own address. -/
theorem xlateLookupStep_of_bareCtx {f : InFlight} {devid : BitVec 24} {pid : BitVec 20} {s : State} (hats : f.req.kind ≠ .ats)
    (hmiss : s.MissesTlb (bareCtx devid pid) f.req) :
    xlateLookupStep f (bareCtx devid pid) s =
      .next ((s.event (f.pinTlb s) .tlbMiss).goOn (f.pinTlb s) (.ending (.ok f.req.iova 0xFFF Perm.rw))) := by
  rw [xlateLookupStep_of_miss (atsAllowed_bareCtx_iff.2 hats) hmiss, xlateMiss_of_bare (by simp) (by simp),
    xlatePassThrough_of_not_msi fun _ => msiMatch_bareCtx _ _ _]
  rfl

theorem State.missesTlb_afterReset (f : InFlight) (ctx : Ctx) : (State.afterReset p es f out).MissesTlb ctx r := by
  intro e he
  have hnone : (State.afterReset p es f out).tlbEntry ctx.gscid ctx.pscid (r.iova.extractLsb' 12 52) = none := rfl
  rw [hnone] at he
  cases he

/-- Any other request misses in the empty IOTLB. -/
theorem endsQuietly_xlateLookup_passThrough (hats : r.kind ≠ .ats) (hout : Quiet out) :
    EndsQuietly (.afterReset p es (firstRequest r ctxGen tlbGen (.translating (bareCtx r.devid r.pid) .lookup)) out)
      (.ok r.iova 0xFFF Perm.rw) := by
  refine .translating (xlateLookupStep_of_bareCtx hats (State.missesTlb_afterReset _ _)) ?_
  exact endsQuietly_ending (.event hout _ _)

/-- What the first request ends with, by the reset mode (R473). -/
def firstResult (p : Params) (r : Request) : Result :=
  match p.resetDdtpMode with
  | .off => .fault .allInboundDisallowed
  | .bare => if r.kind = .ats then .fault .transactionTypeDisallowed else .ok r.iova 0xFFF Perm.rw

theorem endsQuietly_xlateLookup_bare (hmode : p.resetDdtpMode = .bare) (hout : Quiet out) :
    EndsQuietly (.afterReset p es (firstRequest r ctxGen tlbGen (.translating (bareCtx r.devid r.pid) .lookup)) out)
      (firstResult p r) := by
  rw [firstResult, hmode]
  by_cases hats : r.kind = .ats
  · simpa only [if_pos hats] using endsQuietly_xlateLookup_ats hats hout
  · simpa only [if_neg hats] using endsQuietly_xlateLookup_passThrough hats hout

theorem endsQuietly_ctxInsert_bare (hmode : p.resetDdtpMode = .bare) (hout : Quiet out) :
    EndsQuietly (.afterReset p es (firstRequest r (some 0) tlbGen (.resolving (.insert (bareCtx r.devid r.pid)))) out)
      (firstResult p r) := by
  refine .resolving ?_
  rw [ctxStep, ctxInsertStep_of_current rfl]
  exact endsQuietly_xlateLookup_bare hmode hout

theorem endsQuietly_walk_bare (hmode : p.resetDdtpMode = .bare) (hout : Quiet out) :
    EndsQuietly (.afterReset p es (firstRequest r (some 0) tlbGen (.resolving .walk)) out) (firstResult p r) := by
  have hddtp : (Ddtp.reset p).mode = .bare := by rw [Ddtp.reset, hmode]
  refine .resolving ?_
  rw [ctxStep, ctxWalkStep_of_bare hddtp]
  exact endsQuietly_ctxInsert_bare hmode hout

/-! ### The whole path -/

/-- The reset mode decides. -/
theorem endsQuietly_walk (hout : Quiet out) :
    EndsQuietly (.afterReset p es (firstRequest r (some 0) tlbGen (.resolving .walk)) out) (firstResult p r) := by
  cases hmode : p.resetDdtpMode with
  | off =>
    rw [firstResult, hmode]
    exact endsQuietly_walk_off hmode hout
  | bare => exact endsQuietly_walk_bare hmode hout

/-- The empty generation has room for one context (R202). -/
theorem endsQuietly_makeRoom (hcap : 1 ≤ p.ctxCacheCapacity) (hout : Quiet out) :
    EndsQuietly (.afterReset p [] (firstRequest r (some 0) tlbGen (.resolving .makeRoom)) out) (firstResult p r) := by
  have hroom : ¬ p.ctxCacheCapacity ≤ [].length (α := CtxEntry) := Nat.not_le.2 hcap
  refine .resolving ?_
  rw [ctxStep, ctxMakeRoomStep_of_room hroom]
  exact endsQuietly_walk hout

/-- A context without an entry: the event, and the pin of the current generation (R201). -/
theorem ctxLookupStep_of_absent {f : InFlight} {s : State} (h : s.ctxEntry f.req.devid f.req.pid = none) :
    ctxLookupStep f s = (s.event f (if f.req.kind.isAts then .atsRq else .urq)).goOn
      { f with ctxGen := some s.ctxCache.current.number } (.resolving .makeRoom) := by
  rw [ctxLookupStep, h]

theorem endsQuietly_ctxLookup (hcap : 1 ≤ p.ctxCacheCapacity) (hout : Quiet out) :
    EndsQuietly (.afterReset p [] (firstRequest r none tlbGen (.resolving .lookup)) out) (firstResult p r) := by
  refine .resolving ?_
  rw [ctxStep, ctxLookupStep_of_absent rfl]
  exact endsQuietly_makeRoom hcap (.event hout _ _)

end

/-- Settles O55: the request that arrives is the first one, and it ends quietly. -/
theorem firstRequestAfterReset : Obligations.FirstRequestAfterReset := by
  intro p devid pid iova kind s hcap hd hp h
  obtain rfl : arrive devid pid iova kind (State.ofParams p) = s := Host.Outcome.next.inj h
  rw [arrive_ofParams hd hp]
  exact endsQuietly_ctxLookup hcap .nil

end Sys2Proof.Machine
